-- ==== Sys2Proof/Word.lean ====
section
/-! DEFINITION. The word types of the block (00_scope.md R6): bytes, 16-bit and 32-bit unsigned values,
packed pixels and RGB888 pixels. -/

namespace Sys2Proof

/-- A byte, u8 (R6). -/
abbrev Byte := BitVec 8

/-- A 16-bit unsigned value, u16 (R6): register index, register value, width, height. -/
abbrev U16 := BitVec 16

/-- A 32-bit unsigned value, u32 (R6): a clock rate in hertz. -/
abbrev U32 := BitVec 32

/-- A packed pixel, RGB565 (R91 of 42_pixel_pack.md): red [15:11], green [10:5], blue [4:0]. -/
abbrev Pixel := BitVec 16

/-- An RGB888 pixel as one 24-bit word, R in [23:16], G in [15:8], B in [7:0] (R58 of 30_encoding.md). -/
abbrev Rgb := BitVec 24

end Sys2Proof
end

