-- ==== Sys2Proof/Config.lean ====
section
/-! DEFINITION. What an implementation fixes: the constants of 00_scope.md R5, its open parameters, and the free
values of the downstream view. An opaque constant has no body here: no proof can depend on its value. -/

namespace Sys2Proof

/-- Start byte of an index frame (R5, R52). -/
abbrev Config.startIndex : Byte := 0x70
/-- Start byte of a data frame (R5, R52). -/
abbrev Config.startData : Byte := 0x72
/-- The register index that selects GRAM data (R5, R42). -/
abbrev Config.gramReg : U16 := 0x0022
/-- `SPI_MODE`, the constant 3 (R17). -/
abbrev Config.spiMode : Fin 4 := 3
/-- `T_RST_PRE`: at least 10 ms with reset inactive before the pulse (R5, R100). -/
abbrev Config.tRstPre : Nat := 10
/-- `T_RST_LOW`: at least 10 ms with reset active (R5, R100). -/
abbrev Config.tRstLow : Nat := 10
/-- `T_RST_SETTLE`: at least 50 ms after reset is released (R5, R100). -/
abbrev Config.tRstSettle : Nat := 50

/-- `PANEL_W` of the host's PanelGeometry (R110). -/
abbrev Config.panelW : Nat := 240
/-- `PANEL_H` (R110). -/
abbrev Config.panelH : Nat := 320
/-- `PANEL_BPP` (R110); no rule reads it (N18). -/
abbrev Config.panelBpp : Nat := 16

/-- One item of `INIT_SEQ` (R113): a register write, or a host delay of at least `ms` milliseconds. -/
inductive InitItem
  | write (addr value : U16)
  | delay (ms : Nat)
deriving DecidableEq, Repr, Inhabited

/-- One register write of `INIT_SEQ` (R113). -/
structure RegWrite where
  addr : U16
  value : U16
deriving DecidableEq, Repr, Inhabited

/-- A host delay of `INIT_SEQ`: at least 50 ms (R113). -/
structure HostDelay where
  ms : Nat := 50
  atLeast50 : 50 ≤ ms := by decide
deriving DecidableEq, Repr, Inhabited

/-- The power sequencing group of `INIT_SEQ`: the two delays lie inside it, so each stands between two of its writes (R113;
log entry 19). -/
structure PowerGroup where
  first : RegWrite
  before : List RegWrite
  delay1 : HostDelay
  between : List RegWrite
  delay2 : HostDelay
  after : List RegWrite
  last : RegWrite
deriving DecidableEq, Repr, Inhabited

/-- What a list of register writes leaves in a register, none where it does not write it. -/
def lastValue (writes : List RegWrite) (addr : U16) : Option U16 :=
  (writes.reverse.find? fun w => decide (w.addr = addr)).map RegWrite.value

/-- The open parameters of the host level (R5, D17, D18), with all that the spec fixes of them: the four window register
indices are pairwise distinct (R115), and `INIT_SEQ` is six groups of writes in a fixed order, of which the window group
leaves the full panel in the window registers (R113). The default values only show that such parameters exist. -/
structure HostParams where
  /-- `REG_HSTART`. -/
  regHStart : U16 := 0
  /-- `REG_VSTART`. -/
  regVStart : U16 := 1
  /-- `REG_HEND`. -/
  regHEnd : U16 := 2
  /-- `REG_VEND`. -/
  regVEnd : U16 := 3
  distinct : [regHStart, regVStart, regHEnd, regVEnd].Nodup := by decide
  entryMode : List RegWrite := []
  timing : List RegWrite := []
  power : PowerGroup
  gamma : List RegWrite := []
  window : List RegWrite := [⟨0, 0⟩, ⟨1, 0⟩, ⟨2, 239⟩, ⟨3, 319⟩]
  windowIsPanel : [regHStart, regVStart, regHEnd, regVEnd].map (lastValue window) =
    [some 0, some 0, some 239, some 319] := by decide
  displayOn : List RegWrite := []
deriving DecidableEq, Repr, Inhabited

/-- The `speedHz` argument of the construction that precedes `State.reset`: `SPEED_RESET`, OPEN (R5, R27). -/
opaque Config.speedReset : U32

/-- The host parameters of the machine `step` runs: OPEN (R5, D17, D18). Every host function takes them as an
argument, so a claim can be made for all of them (log entry 19). -/
opaque Config.hostParams : HostParams

/-- Free value: `SEL` where the spec leaves the downstream view open (R37, U2; log entries 9 to 13). -/
opaque Config.freeSel : Nat → U16
/-- Free value: the contents of `REGS` where they are left open (R37, U2). -/
opaque Config.freeRegs : Nat → List (U16 × U16)
/-- Free value: the contents of GRAM where they are left open (R37, U2). -/
opaque Config.freeGram : Nat → List (Nat × Pixel)
/-- Free value: where `WPTR` stands, at the beginning of a stream among other places (R37, U7; log entry 12). -/
opaque Config.freeWptr : Nat → Nat
/-- Free value: where `WPTR` goes when it advances, given the register map (the window is in it) and where it
stood (R36, R37, U7; log entry 12). -/
opaque Config.wptrAdvance : Nat → List (Nat × U16) → Nat → Nat

end Sys2Proof
end

