-- ==== Sys2Proof/Syntax.lean ====
section
/-! DEFINITION. The instructions: one constructor for each row of spec/opcode_table.json. The first seven are the
commands of the block (30_encoding.md R56); the last four are the wire frames (R51, R53), which the controller
downstream executes (20_memory.md R34 to R36). -/

namespace Sys2Proof

inductive Instr
  /-- `WRIDX addr` (R70): write the register index. -/
  | wridx (addr : U16)
  /-- `WRDAT value` (R71): write data to the register selected before. -/
  | wrdat (value : U16)
  /-- `WRREG addr, value` (R72): one complete register write. -/
  | wrreg (addr value : U16)
  /-- `STRM WxH buf` (R80): send a packed pixel buffer, row-major. -/
  | strm (w h : U16) (buf : List Pixel)
  /-- `RSTP` (R100): pulse the controller's reset line. -/
  | rstp
  /-- `PACK WxH inbuf` (R92): convert an RGB888 buffer, row-major. -/
  | pack (w h : U16) (inbuf : List Rgb)
  /-- `SETSPD hz` (R101): set the configured bus speed. -/
  | setspd (hz : U32)
  /-- Wire frame `IDXFRAME` (R51): [0x70, a[15:8], a[7:0]]. -/
  | idxframe (a : U16)
  /-- Wire frame `DATFRAME` (R51): [0x72, v[15:8], v[7:0]]. -/
  | datframe (v : U16)
  /-- Wire frame `GRAMSEL` (R51): [0x70, 0x00, 0x22]. -/
  | gramsel
  /-- Wire frame `PIXFRAME` (R53): 0x72 and then the bytes of the packed pixels. -/
  | pixframe (ps : List Pixel)
deriving DecidableEq, Repr

/-- The two ways an instruction reaches the machine, each as bytes: a command at the block's command port (R63), its
word most significant byte first and then its payload (log entry 2), or a complete bracketed frame at the
controller (R34 to R36), its bytes in the order sent. -/
inductive Packet
  | command (bytes : List Byte)
  | frame (bytes : List Byte)
deriving DecidableEq, Repr

end Sys2Proof
end

