-- ==== Sys2Proof/Machine/State.lean ====
section
/-! DEFINITION. The state of the machine: the block's elements (10_state.md R10), what the host is handed (R24), the
controller downstream (20_memory.md R33), the host's own state (44_host_sequences.md R111) and the model's own fields
(the environment's answers, the counter of free values, what the host has yet to give). -/

namespace Sys2Proof.Machine

/-- The level of a line: 0 is active (asserted), 1 inactive (R11). -/
inductive Level
  /-- Level 0, active. -/
  | low
  /-- Level 1, inactive. -/
  | high
deriving DecidableEq, Repr, Inhabited

/-- The two output lines (R20, R21). -/
inductive Line
  | cs
  | rst
deriving DecidableEq, Repr

/-- The four micro-operations (R14, R20 to R23). -/
inductive MicroOp
  | driveCs (l : Level)
  | driveRst (l : Level)
  | txFrame (bytes : List Byte)
  | wait (ms : Nat)
deriving DecidableEq, Repr

/-- The five kinds of event of `TRACE` (R16). -/
inductive Event
  | cs (l : Level)
  | rst (l : Level)
  | tx (b : Byte)
  | wait (ms : Nat)
  | fail (code : BitVec 3)
deriving DecidableEq, Repr

/-- The failures that can be raised, with the information R130 records of them. -/
inductive Failure
  | busOpen
  | busTransfer (sent : Nat)
  | gpioAccess (line : Line)
  | illegalCommand
deriving DecidableEq, Repr

/-- What the block hands the host when a command completes: the code and, for `PACK`, the result buffer (R24). -/
structure Completion where
  code : BitVec 3
  result : Option (List Pixel)
deriving DecidableEq, Repr

/-- An answer of `Env.gpio` or `Env.open` (R131); `never` is the environment that does not answer. -/
inductive PinAnswer
  | ok
  | fail
  | never
deriving DecidableEq, Repr

/-- An answer of `Env.xfer` (R131); `xferFail k` after `k` bytes were sent. -/
inductive XferAnswer
  | ok
  | openFail
  | xferFail (k : Nat)
  | never
deriving DecidableEq, Repr

/-- The environment: the answers it will give, in the order of the questions. A list that has run out answers
`ok` from there on (log entry 3). -/
structure Env where
  gpio : List PinAnswer
  xfer : List XferAnswer
  busOpen : List PinAnswer
deriving DecidableEq, Repr

/-- Memory of 16-bit cells by number: a number that is not listed reads as `Memory.unlisted` (log entry 17). -/
abbrev Memory := List (Nat × BitVec 16)

/-- The controller downstream (R33): the selected register, the GRAM write pointer, the registers, GRAM, and the
bytes received so far of the frame whose bracket is open. -/
structure Controller where
  sel : U16
  wptr : Nat
  regs : Memory
  gram : Memory
  rx : Option (List Byte)
deriving DecidableEq, Repr

/-- `DRV_STATE` (R111); `failed` is the condition the spec names `Failed`. -/
inductive DrvState
  | uninitialized
  | initializing
  | ready
  | failed
deriving DecidableEq, Repr

/-- A buffer the host draws (R32): width, height and the RGB888 pixels, row-major. -/
structure PixelBuffer where
  w : U16
  h : U16
  px : List Rgb
deriving DecidableEq, Repr

/-- The operations of ControllerDriver the host can ask for (R62): the pseudo-instructions, but for `INIT`, which
runs inside `NEW` only (R111). -/
inductive HostOp
  | new (speedHz : U32)
  | setWin (x0 y0 x1 y1 : U16)
  | drawRegion (x y : Int) (buf : PixelBuffer)
  | drawFull (buf : PixelBuffer)
  | getSize
deriving DecidableEq, Repr

/-- What an operation of ControllerDriver returns to its caller. -/
inductive HostResult
  /-- `NEW` succeeded (R112). -/
  | driver
  /-- `NEW` failed, with the code that is its cause (R140). -/
  | constructionFailure (cause : BitVec 3)
  /-- A draw on a driver that is not `Ready` (R118). -/
  | notInitialized
  /-- The sequence was stopped by a completion code other than 0. -/
  | error (code : BitVec 3)
  /-- The sequence ran to its end. -/
  | done
  /-- `GETSIZE` (R110). -/
  | size (w h : Nat)
deriving DecidableEq, Repr

/-- Entries of the host's log: a delay the host kept (R113), a result returned. -/
inductive HostEvent
  | delayed (ms : Nat)
  | returned (r : HostResult)
deriving DecidableEq, Repr

/-- What a completion code other than 0 ends: a construction (R111, R140) or another operation. -/
inductive OnFail
  | construction
  | operation
deriving DecidableEq, Repr

/-- What block reset acquires, in this order (R151): the two lines, then the bus. -/
inductive Resource
  | csLine
  | rstLine
  | bus
deriving DecidableEq, Repr

/-- The steps a host sequence is made of. -/
inductive HostStep
  /-- Block reset with this `SPEED_RESET` (R150, R151). -/
  | blockReset (speedHz : U32)
  /-- Block reset, its elements set, waiting inside the first of these acquisitions (R151, R131). -/
  | acquire (rs : List Resource)
  /-- `DRV_STATE <- d` (R111). -/
  | setDrv (d : DrvState)
  /-- Give the block a command and wait for it. -/
  | give (i : Instr)
  /-- Stop at a completion code other than 0: that of the last command, or of a block reset (R140). -/
  | check (h : OnFail)
  /-- Give `STRM` with the buffer the last command returned (R116). -/
  | stream (w h : U16)
  /-- Let at least this many milliseconds pass, giving no command (R113). -/
  | delay (ms : Nat)
  /-- Return this to the caller. -/
  | ret (r : HostResult)
deriving DecidableEq, Repr

/-- What is next at the machine's inputs: an instruction as bytes, or an operation of ControllerDriver. -/
inductive Stimulus
  | packet (p : Packet)
  | host (op : HostOp)
deriving DecidableEq, Repr

/-- The whole state. -/
structure State where
  /-- `CS_N`, the level driven on the chip-select line (R11). -/
  csN : Level
  /-- `RST_N`, the level driven on the reset line (R12). -/
  rstN : Level
  /-- `SPEED_HZ`, the configured clock rate (R17). -/
  speedHz : U32
  /-- `SPEED_ACTIVE`, the rate of the open session (R17). -/
  speedActive : U32
  /-- `SPI_MODE`, the constant 3 (R17). -/
  spiMode : Fin 4
  /-- `SEQ`, what remains of the command in progress (R14). -/
  seq : List MicroOp
  /-- `FAULT`, the code of the first failure since reset (R15). -/
  fault : BitVec 3
  /-- `TRACE`, the events since reset (R16). -/
  trace : List Event
  /-- The completions handed to the host, oldest first (R24). -/
  completions : List Completion
  /-- The controller downstream (R33). -/
  ctrl : Controller
  /-- The environment's answers to come (R131); the model's own field. -/
  env : Env
  /-- The next free value; the model's own field. -/
  free : Nat
  /-- `DRV_STATE` (R111). -/
  drv : DrvState
  /-- What remains of the host sequence in progress; the model's own field. -/
  hostSeq : List HostStep
  /-- What the host has yet to present; the model's own field. -/
  inbox : List Stimulus
  /-- What the driver's operations returned and the delays kept; the model's own field. -/
  hostLog : List HostEvent
deriving DecidableEq, Repr

/-- What performing one micro-operation comes to: done, a failure to be raised, or no answer from the environment. -/
inductive Performed
  | done (s : State)
  | failed (f : Failure) (s : State)
  | hung
deriving DecidableEq, Repr

/-- Faults of the model: none. Every failure the spec describes is a next state (R134), and a run that hangs is a run
(R131), so no meaning ends in a fault (log entry 23). -/
inductive Fault
deriving DecidableEq, Repr

/-- Refusals of the model. -/
inductive Refusal
  /-- Raised by an arm of `exec` whose instruction has no meaning yet; no arm is left so. Safe: nothing can be
  proved of an instruction that is refused. -/
  | notModelled (mnemonic : String)
deriving DecidableEq, Repr

/-- The controller before anything reached it: `SEL`, `WPTR`, every register and every GRAM location 0 (log entry 7: the
source gives no value). -/
def Controller.reset : Controller :=
  { sel := 0, wptr := 0, regs := [], gram := [], rx := none }

/-- The state after a successful block reset at power-up with this `SPEED_RESET` (R27, R151). -/
def State.resetWith (speedReset : U32) : State :=
  { csN := .high, rstN := .high, speedHz := speedReset, speedActive := speedReset, spiMode := Config.spiMode,
    seq := [], fault := 0, trace := [], completions := [], ctrl := Controller.reset,
    env := { gpio := [], xfer := [], busOpen := [] }, free := 0, drv := .uninitialized,
    hostSeq := [], inbox := [], hostLog := [] }

/-- The machine right after reset (R27): `SPEED_RESET` is the open parameter of Config. -/
def State.reset : State := State.resetWith Config.speedReset

end Sys2Proof.Machine
end

