-- ==== Sys2Proof/Machine/Flags.lean ====
section
/-! DEFINITION. The status of the block. It has no condition codes (10_state.md R15); its one status register is
`FAULT`, whose codes stand here (60_exceptions.md R130). -/

namespace Sys2Proof.Machine

/-- Code 0: the command completed (R130). -/
def codeNone : BitVec 3 := 0
/-- Code 5, `Faulted`: a completion code only, never stored in `FAULT` (R130). -/
def codeFaulted : BitVec 3 := 5

/-- The numeric code of a failure (R130). -/
def Failure.code : Failure → BitVec 3
  | .busOpen => 1
  | .busTransfer _ => 2
  | .gpioAccess _ => 3
  | .illegalCommand => 4

/-- What `FAULT` holds after a failure of code `c`: the first code since reset is kept (R15, R134). -/
def recordFault (old c : BitVec 3) : BitVec 3 := if old = 0 then c else old

end Sys2Proof.Machine
end

