-- ==== Sys2Proof/WellFormed.lean ====
section
/-! DEFINITION. Well-formed instructions. For the commands this is 30_encoding.md R59 (c): opcode and must-be-zero
fields hold by construction of `Instr`. For the frames it says which constructor stands for bytes that two rows of
the table match (log entry 16). -/

namespace Sys2Proof

/-- R59 (c): the payload of `STRM` and `PACK` has exactly `a * b` elements; no other command has a payload. -/
def Instr.payloadOk : Instr → Bool
  | .strm w h buf => decide (buf.length = w.toNat * h.toNat)
  | .pack w h inbuf => decide (inbuf.length = w.toNat * h.toNat)
  | .wridx _ | .wrdat _ | .wrreg _ _ | .rstp | .setspd _ => true
  | .idxframe _ | .datframe _ | .gramsel | .pixframe _ => true

/-- One constructor for each frame: the index frame of 0x0022 is `gramsel` (R51), and a stream frame of one pixel
is `datframe`, whose bytes it has (R54). -/
def Instr.canonical : Instr → Bool
  | .idxframe a => decide (a ≠ Config.gramReg)
  | .pixframe ps => decide (ps.length ≠ 1)
  | .wridx _ | .wrdat _ | .wrreg _ _ | .strm _ _ _ | .rstp | .pack _ _ _ | .setspd _ => true
  | .datframe _ | .gramsel => true

/-- Well-formed: the payload has its length and the frame its own constructor. -/
def Instr.wf (i : Instr) : Bool := i.payloadOk && i.canonical

/-- The seven commands of R56; the other four constructors are wire frames. -/
def Instr.isCommand : Instr → Bool
  | .wridx _ | .wrdat _ | .wrreg _ _ | .strm _ _ _ | .rstp | .pack _ _ _ | .setspd _ => true
  | .idxframe _ | .datframe _ | .gramsel | .pixframe _ => false

end Sys2Proof
end

