-- ==== Sys2Proof/Decode.lean ====
section
/-! DEFINITION. Decoder and encoder. Commands: format C40 and the opcode map (30_encoding.md R55 to R59). Wire
frames: formats W3 and WS (R51, R53). The byte-order helpers the rest of the model uses stand here too
(00_scope.md R6, 20_memory.md R38). -/

namespace Sys2Proof

/-! ### Bytes of a 16-bit value (R6, R38) -/

/-- `v[15:8]`, the byte that goes first (R38). -/
def hiByte (v : U16) : Byte := v.extractLsb' 8 8

/-- `v[7:0]`. -/
def loByte (v : U16) : Byte := v.extractLsb' 0 8

/-- `{h, l}`: the 16-bit value with high byte `h` (R6). -/
def joinBytes (h l : Byte) : U16 := (h ++ l : BitVec (8 + 8))

/-- `bytes(buf)` (R81 of 41_pixel_stream.md): two bytes a pixel, high byte first, in buffer order. -/
def pixelBytes : List Pixel → List Byte
  | [] => []
  | p :: ps => hiByte p :: loByte p :: pixelBytes ps

/-- The 16-bit elements of a byte list, high byte first; none for an odd number of bytes. -/
def bytesPixels : List Byte → Option (List Pixel)
  | [] => some []
  | [_] => none
  | h :: l :: rest => (bytesPixels rest).map (joinBytes h l :: ·)

/-- An RGB888 payload as bytes, R then G then B for each pixel (R58; log entry 2). -/
def rgbBytes : List Rgb → List Byte
  | [] => []
  | p :: ps => p.extractLsb' 16 8 :: p.extractLsb' 8 8 :: p.extractLsb' 0 8 :: rgbBytes ps

/-- The 24-bit elements of a byte list; none when the number of bytes is not a multiple of three. -/
def bytesRgb : List Byte → Option (List Rgb)
  | [] => some []
  | [_] => none
  | [_, _] => none
  | r :: g :: b :: rest => (bytesRgb rest).map ((r ++ g ++ b : BitVec (8 + 8 + 8)) :: ·)

/-! ### Errors -/

/-- Why bytes are no instruction. The first four are what R59 calls a command that is not well formed, the last four
are frames the source gives no meaning to (R37, U10). -/
inductive DecodeError
  /-- Fewer than the five bytes of a command word: no opcode is there (R55). -/
  | shortWord
  /-- Opcode 0x00 or 0x08 to 0xFF (R59). -/
  | reservedOpcode (op : Byte)
  /-- A field R56 marks "must be 0" is not 0 (R59 (b)). -/
  | nonZeroField
  /-- The payload has not the length R59 (c) asks for. -/
  | payloadLength
  /-- A frame of no bytes. -/
  | emptyFrame
  /-- A start byte other than 0x70 and 0x72 (U10). -/
  | unknownStartByte (b : Byte)
  /-- An index frame that does not have three bytes (R37). -/
  | indexFrameLength
  /-- A stream frame with an odd number of payload bytes (R37). -/
  | oddPayload
deriving DecidableEq, Repr

/-! ### Commands: the word (R55) and the opcode map (R56) -/

/-- The 40-bit command word of its three fields (R55). -/
def commandWord (op : Byte) (a b : U16) : BitVec 40 := (op ++ a ++ b : BitVec (8 + 16 + 16))

/-- `op`, bits [39:32] (R55). -/
def wordOp (w : BitVec 40) : Byte := w.extractLsb' 32 8
/-- `a`, bits [31:16] (R55). -/
def wordA (w : BitVec 40) : U16 := w.extractLsb' 16 16
/-- `b`, bits [15:0] (R55). -/
def wordB (w : BitVec 40) : U16 := w.extractLsb' 0 16

/-- The five bytes of a command word, most significant first (log entry 2). -/
def wordBytes (w : BitVec 40) : List Byte :=
  [w.extractLsb' 32 8, w.extractLsb' 24 8, w.extractLsb' 16 8, w.extractLsb' 8 8, w.extractLsb' 0 8]

/-- A command without payload: R59 (c). -/
def noPayload (payload : List Byte) (i : Instr) : Except DecodeError Instr :=
  if payload = [] then .ok i else .error .payloadLength

/-- A command one of whose fields must be 0: R59 (b). -/
def zeroField (field : U16) (r : Except DecodeError Instr) : Except DecodeError Instr :=
  if field = 0 then r else .error .nonZeroField

/-- `STRM`: the payload is `W*H` elements of 16 bits (R58, R59). -/
def strmPayload (w h : U16) (payload : List Byte) : Except DecodeError Instr :=
  match bytesPixels payload with
  | some buf => if buf.length = w.toNat * h.toNat then .ok (.strm w h buf) else .error .payloadLength
  | none => .error .payloadLength

/-- `PACK`: the payload is `W*H` elements of 24 bits (R58, R59). -/
def packPayload (w h : U16) (payload : List Byte) : Except DecodeError Instr :=
  match bytesRgb payload with
  | some buf => if buf.length = w.toNat * h.toNat then .ok (.pack w h buf) else .error .payloadLength
  | none => .error .payloadLength

/-- The opcode map of R56 with the operand assembly of R57. -/
def decodeWord (w : BitVec 40) (payload : List Byte) : Except DecodeError Instr :=
  let op := wordOp w
  let a := wordA w
  let b := wordB w
  if op = 0x01 then zeroField b (noPayload payload (.wridx a))
  else if op = 0x02 then zeroField b (noPayload payload (.wrdat a))
  else if op = 0x03 then noPayload payload (.wrreg a b)
  else if op = 0x04 then strmPayload a b payload
  else if op = 0x05 then zeroField a (zeroField b (noPayload payload .rstp))
  else if op = 0x06 then packPayload a b payload
  else if op = 0x07 then noPayload payload (.setspd (a ++ b : BitVec (16 + 16)))
  else .error (.reservedOpcode op)

/-- A command from the bytes at the command port. -/
def decodeCommand : List Byte → Except DecodeError Instr
  | b4 :: b3 :: b2 :: b1 :: b0 :: payload => decodeWord (b4 ++ b3 ++ b2 ++ b1 ++ b0 : BitVec (8 + 8 + 8 + 8 + 8)) payload
  | _ => .error .shortWord

/-! ### Wire frames (R51, R53, R54) -/

/-- An index frame's operand: 0x0022 is the row `GRAMSEL` (R51). -/
def indexFrame (a : U16) : Instr := if a = Config.gramReg then .gramsel else .idxframe a

/-- The bytes after the start byte 0x72: two of them are a data frame (R51), any other even number a stream frame
(R53). The two are told apart by length alone here; a stream frame of one pixel has a data frame's bytes (R54). -/
def dataFrame (payload : List Byte) : Except DecodeError Instr :=
  match bytesPixels payload with
  | some [v] => .ok (.datframe v)
  | some ps => .ok (.pixframe ps)
  | none => .error .oddPayload

/-- A frame from the bytes sent in one chip-select bracket. -/
def decodeFrame : List Byte → Except DecodeError Instr
  | [] => .error .emptyFrame
  | start :: payload =>
    if start = Config.startIndex then
      match payload with
      | [h, l] => .ok (indexFrame (joinBytes h l))
      | _ => .error .indexFrameLength
    else if start = Config.startData then dataFrame payload
    else .error (.unknownStartByte start)

/-- The decoder: total on any bytes. -/
def decode : Packet → Except DecodeError Instr
  | .command bytes => decodeCommand bytes
  | .frame bytes => decodeFrame bytes

/-! ### The encoder, from the same tables -/

/-- The index frame of an operand, format W3 (R51). -/
def indexFrameBytes (a : U16) : List Byte := [Config.startIndex, hiByte a, loByte a]

/-- The data frame of an operand, format W3 (R51). -/
def dataFrameBytes (v : U16) : List Byte := [Config.startData, hiByte v, loByte v]

/-- The stream frame of a packed buffer, format WS (R53). -/
def streamFrameBytes (ps : List Pixel) : List Byte := Config.startData :: pixelBytes ps

/-- The words of an instruction, as the bytes that carry it. -/
def encode : Instr → Packet
  | .wridx addr => .command (wordBytes (commandWord 0x01 addr 0))
  | .wrdat value => .command (wordBytes (commandWord 0x02 value 0))
  | .wrreg addr value => .command (wordBytes (commandWord 0x03 addr value))
  | .strm w h buf => .command (wordBytes (commandWord 0x04 w h) ++ pixelBytes buf)
  | .rstp => .command (wordBytes (commandWord 0x05 0 0))
  | .pack w h inbuf => .command (wordBytes (commandWord 0x06 w h) ++ rgbBytes inbuf)
  | .setspd hz => .command (wordBytes (commandWord 0x07 (hz.extractLsb' 16 16) (hz.extractLsb' 0 16)))
  | .idxframe a => .frame (indexFrameBytes a)
  | .datframe v => .frame (dataFrameBytes v)
  | .gramsel => .frame (indexFrameBytes Config.gramReg)
  | .pixframe ps => .frame (streamFrameBytes ps)

/-! ### Words numbered as the opcode table numbers them -/

/-- The payload of zeros a command word asks for: two bytes an element for `STRM`, three for `PACK` (R58). -/
def zeroPayload (w : BitVec 40) : List Byte :=
  let n := (wordA w).toNat * (wordB w).toNat
  if wordOp w = 0x04 then List.replicate (2 * n) 0
  else if wordOp w = 0x06 then List.replicate (3 * n) 0
  else []

/-- The bytes of an instruction given as a number in the table's bit order: 40 bits are a command word and its
payload (zeros, above the table's bits), 24 bits a frame of three bytes and 8 bits a frame of one, each with its
most significant byte first, the byte sent first (R51, R53, R55). -/
def tablePacket (nbits w : Nat) : Option Packet :=
  if nbits = 40 then
    let word := BitVec.ofNat 40 w
    some (.command (wordBytes word ++ zeroPayload word))
  else if nbits = 24 then
    let v := BitVec.ofNat 24 w
    some (.frame [v.extractLsb' 16 8, v.extractLsb' 8 8, v.extractLsb' 0 8])
  else if nbits = 8 then some (.frame [BitVec.ofNat 8 w])
  else none

/-- The instruction the decoder reads from a word of the opcode table. -/
def decodeTableWord (nbits w : Nat) : Option Instr :=
  match tablePacket nbits w with
  | some p =>
    match decode p with
    | .ok i => some i
    | .error _ => none
  | none => none

end Sys2Proof
end

