-- ==== Sys2Proof/Machine/Operands.lean ====
section
/-! DEFINITION. Operand forms: the frames a command cuts from its operands (30_encoding.md R57, R51, R53) and the
expansions built of them (40_register_write.md R70 to R72, 41_pixel_stream.md R80, 43_system.md R100). There is one
addressing mode, the 16-bit register index as it stands (20_memory.md R47). -/

namespace Sys2Proof.Machine

/-- One frame in its own chip-select bracket (R44, R51). -/
def bracket (frame : List Byte) : List MicroOp :=
  [.driveCs .low, .txFrame frame, .driveCs .high]

/-- Expansion of `WRIDX addr` (R70). -/
def expandWridx (addr : U16) : List MicroOp := bracket (indexFrameBytes addr)

/-- Expansion of `WRDAT value` (R71). -/
def expandWrdat (value : U16) : List MicroOp := bracket (dataFrameBytes value)

/-- Expansion of `WRREG addr, value`: that of `WRIDX` and then that of `WRDAT` (R72). -/
def expandWrreg (addr value : U16) : List MicroOp := expandWridx addr ++ expandWrdat value

/-- Expansion of `STRM`: the GRAM-select frame, then one frame with the whole buffer (R80). -/
def expandStrm (buf : List Pixel) : List MicroOp :=
  bracket (indexFrameBytes Config.gramReg) ++ bracket (streamFrameBytes buf)

/-- Expansion of `RSTP` (R100). -/
def expandRstp : List MicroOp :=
  [.driveRst .high, .wait Config.tRstPre, .driveRst .low, .wait Config.tRstLow, .driveRst .high,
    .wait Config.tRstSettle]

end Sys2Proof.Machine
end

