-- ==== Sys2Proof/Machine/Ops.lean ====
section
/-! DEFINITION. The named operations the meanings share: memory of 16-bit cells, the downstream view
(20_memory.md R33 to R37), events (10_state.md R16), failures (60_exceptions.md R134), the four micro-operations
(R20 to R23), the sequencer's step (R24), acceptance (R19) and block reset (70_reset_and_hazards.md R151). -/

namespace Sys2Proof.Machine

/-! ### Updates of one field -/

/-- `CS_N <- l`. -/
def State.setCsN (l : Level) (s : State) : State := { s with csN := l }
/-- `RST_N <- l`. -/
def State.setRstN (l : Level) (s : State) : State := { s with rstN := l }
/-- `SPEED_HZ <- hz`. -/
def State.setSpeedHz (hz : U32) (s : State) : State := { s with speedHz := hz }
/-- `SPEED_ACTIVE <- hz`. -/
def State.setSpeedActive (hz : U32) (s : State) : State := { s with speedActive := hz }
/-- `SEQ <- l`. -/
def State.setSeq (l : List MicroOp) (s : State) : State := { s with seq := l }
/-- `FAULT <- c`. -/
def State.setFault (c : BitVec 3) (s : State) : State := { s with fault := c }
/-- An event at the end of `TRACE`. -/
def State.pushTrace (e : Event) (s : State) : State := { s with trace := s.trace ++ [e] }
/-- The environment after an answer. -/
def State.setEnv (e : Env) (s : State) : State := { s with env := e }
/-- The downstream view; no free value is used. -/
def State.setCtrl (c : Controller) (s : State) : State := { s with ctrl := c }
/-- The downstream view, one free value having been used for it. -/
def State.setCtrlFree (c : Controller) (s : State) : State := { s with ctrl := c, free := s.free + 1 }
/-- `DRV_STATE <- d`. -/
def State.setDrv (d : DrvState) (s : State) : State := { s with drv := d }
/-- What remains of the host sequence. -/
def State.setHostSeq (l : List HostStep) (s : State) : State := { s with hostSeq := l }
/-- What the host has yet to present. -/
def State.setInbox (l : List Stimulus) (s : State) : State := { s with inbox := l }

/-! ### Memory -/

/-- What a number that is not listed reads as: every register and every GRAM location holds 0 at reset (log entries 7,
17). -/
def Memory.unlisted : BitVec 16 := 0

/-- The canonical form: numbers strictly rising, and no entry equal to what an unlisted number reads as. -/
abbrev Memory.wf (m : Memory) : Prop :=
  List.Pairwise (fun a b => a.1 < b.1) m ∧ ∀ e ∈ m, e.2 ≠ Memory.unlisted

/-- The 16-bit value at a number. -/
def Memory.read : Memory → Nat → BitVec 16
  | [], _ => Memory.unlisted
  | (k, x) :: m, a => if k = a then x else Memory.read m a

/-- An entry put at its place. -/
def Memory.insert : Memory → Nat → BitVec 16 → Memory
  | [], a, v => [(a, v)]
  | (k, x) :: m, a, v => if a < k then (a, v) :: (k, x) :: m else (k, x) :: Memory.insert m a v

/-- `MemWrite(a, 2, v)` (R35): keeps the canonical form. -/
def Memory.write (m : Memory) (a : Nat) (v : BitVec 16) : Memory :=
  let others := m.filter fun e => decide (e.1 ≠ a)
  if v = Memory.unlisted then others else Memory.insert others a v

/-- Writes in list order, the first first. -/
def Memory.writeAll : Memory → List (Nat × BitVec 16) → Memory
  | m, [] => m
  | m, (a, v) :: ws => Memory.writeAll (Memory.write m a v) ws

/-! ### The downstream view -/

/-- The controller with every part of it a free value, apart from the frame it is receiving. -/
def openController (n : Nat) (rx : Option (List Byte)) : Controller :=
  { sel := Config.freeSel n
    wptr := Config.freeWptr n
    regs := Memory.writeAll [] ((Config.freeRegs n).map fun e => (e.1.toNat, e.2))
    gram := Memory.writeAll [] (Config.freeGram n)
    rx := rx }

/-- The downstream view becomes any value (R37, U2): `SEL`, `WPTR`, `REGS` and GRAM. -/
def openDownstream (s : State) : State :=
  s.setCtrlFree (openController s.free s.ctrl.rx)

/-- `WPTR` becomes any value (R37; log entry 12). -/
def openWptr (s : State) : State :=
  s.setCtrlFree { s.ctrl with wptr := Config.freeWptr s.free }

/-- An index frame selects a register: `SEL <- a` (R34). Where `WPTR` stands when a stream begins is open (R37). -/
def selectIndex (a : U16) (s : State) : State :=
  let t := s.setCtrl { s.ctrl with sel := a }
  if a = Config.gramReg then openWptr t else t

/-- `REGS[SEL] <- v` (R35). Whether a register write moves `WPTR` is not said (N15), so it is left open. `SEL` stays: that a
second data frame, with no index frame between, writes the same register again is the model's choice (log entry 30). -/
def writeRegister (v : U16) (s : State) : State :=
  openWptr (s.setCtrl { s.ctrl with regs := Memory.write s.ctrl.regs s.ctrl.sel.toNat v })

/-- One pixel is written at `WPTR`, which then advances (R36); where to is open (R37, U7). -/
def writePixel (p : Pixel) (s : State) : State :=
  s.setCtrlFree
    { s.ctrl with
      gram := Memory.write s.ctrl.gram s.ctrl.wptr p
      wptr := Config.wptrAdvance s.free s.ctrl.regs s.ctrl.wptr }

/-- Pixels are written in order (R36). -/
def writePixels : List Pixel → State → State
  | [], s => s
  | p :: ps, s => writePixels ps (writePixel p s)

/-- The GRAM locations `writePixels` stores to, for `n` pixels, the first first. -/
def pixelTargets (regs : Memory) : Nat → Nat → Nat → List Nat
  | 0, _, _ => []
  | n + 1, free, wptr => wptr :: pixelTargets regs n (free + 1) (Config.wptrAdvance free regs wptr)

/-- A three-byte data frame: a register write, or one pixel when index 0x0022 is selected (R35, R36, R54). Every data frame is
taken so, also the second in a row, of which R71 says that it is outside the source (log entry 30). -/
def receiveData (v : U16) (s : State) : State :=
  if s.ctrl.sel = Config.gramReg then writePixel v s else writeRegister v s

/-- A stream frame. With index 0x0022 selected its pixels are written (R36). One pixel is a three-byte data frame (R54).
What a data frame of another length does when another index is selected is open (R37), and nothing is claimed of a
bare start byte (D21). -/
def receiveStream (ps : List Pixel) (s : State) : State :=
  match ps with
  | [] => openDownstream s
  | [v] => receiveData v s
  | _ :: _ :: _ => if s.ctrl.sel = Config.gramReg then writePixels ps s else openDownstream s

/-- What a frame does at the controller (R34 to R36); a command is no frame. -/
def frameEffect (i : Instr) (s : State) : State :=
  match i with
  | .idxframe a => selectIndex a s
  | .gramsel => selectIndex Config.gramReg s
  | .datframe v => receiveData v s
  | .pixframe ps => receiveStream ps s
  | .wridx _ | .wrdat _ | .wrreg _ _ | .strm _ _ _ | .rstp | .pack _ _ _ | .setspd _ => openDownstream s

/-- A complete bracketed frame reaches the controller (R34 to R36); one the rules give no meaning to leaves the
downstream view open (R37, U10). -/
def receiveFrame (bytes : List Byte) (s : State) : State :=
  match decodeFrame bytes with
  | .ok i => frameEffect i s
  | .error _ => openDownstream s

/-! ### Events -/

/-- What the controller makes of an event: a bracket opens at `CS(0)` and is complete at `CS(1)` (R44), a byte adds to
the open frame, and the active reset level leaves it with any values (R100, N3). -/
def observe (e : Event) (s : State) : State :=
  match e with
  | .cs .low => s.setCtrl { s.ctrl with rx := some [] }
  | .cs .high =>
    match s.ctrl.rx with
    | some bytes => receiveFrame bytes (s.setCtrl { s.ctrl with rx := none })
    | none => s
  | .tx b => s.setCtrl { s.ctrl with rx := s.ctrl.rx.map (· ++ [b]) }
  | .rst .low => openDownstream s
  | .rst .high => s
  | .wait _ => s
  | .fail _ => s

/-- `emit(e)`: append to `TRACE` (R7, R16); the controller sees it. -/
def emit (e : Event) (s : State) : State :=
  observe e (s.pushTrace e)

/-- `emit(TX(b))` for each byte, the first first (R22). -/
def emitBytes : List Byte → State → State
  | [], s => s
  | b :: bs, s => emitBytes bs (emit (.tx b) s)

/-! ### Completion and failure -/

/-- `complete(c, err)` (R24): the host is handed the code and, for `PACK`, the result. -/
def complete (code : BitVec 3) (result : Option (List Pixel)) (s : State) : State :=
  { s with completions := s.completions ++ [{ code := code, result := result }] }

/-- `raise F(info)` (R134): taking a failure. There is no return from it but block reset (R139). -/
def raise (f : Failure) (s : State) : State :=
  complete f.code none ((emit (.fail f.code) (s.setFault (recordFault s.fault f.code))).setSeq [])

/-! ### The environment -/

/-- `Env.gpio`: the next answer for a line, and the environment after it (R131). -/
def askGpio (e : Env) : PinAnswer × Env :=
  match e.gpio with
  | [] => (.ok, e)
  | a :: rest => (a, { e with gpio := rest })

/-- `Env.xfer` (R131). -/
def askXfer (e : Env) : XferAnswer × Env :=
  match e.xfer with
  | [] => (.ok, e)
  | a :: rest => (a, { e with xfer := rest })

/-- `Env.open` (R131). -/
def askOpen (e : Env) : PinAnswer × Env :=
  match e.busOpen with
  | [] => (.ok, e)
  | a :: rest => (a, { e with busOpen := rest })

/-- Every answer to come is `ok`: the premise of normal operation (R131). -/
def Env.allOk (e : Env) : Bool :=
  e.gpio.all (· == .ok) && e.xfer.all (· == .ok) && e.busOpen.all (· == .ok)

/-! ### The micro-operations -/

/-- `drive_cs(l)` (R20). -/
def driveCs (l : Level) (s : State) : Performed :=
  match askGpio s.env with
  | (.ok, e) => .done (emit (.cs l) ((s.setCsN l).setEnv e))
  | (.fail, e) => .failed (.gpioAccess .cs) (s.setEnv e)
  | (.never, _) => .hung

/-- `drive_rst(l)` (R21). -/
def driveRst (l : Level) (s : State) : Performed :=
  match askGpio s.env with
  | (.ok, e) => .done (emit (.rst l) ((s.setRstN l).setEnv e))
  | (.fail, e) => .failed (.gpioAccess .rst) (s.setEnv e)
  | (.never, _) => .hung

/-- `tx_frame(bytes)` (R22): `open_fail` is tested before `xfer_fail` (R137). -/
def txFrame (bytes : List Byte) (s : State) : Performed :=
  match askXfer s.env with
  | (.ok, e) => .done (emitBytes bytes (s.setEnv e))
  | (.openFail, e) => .failed .busOpen (s.setEnv e)
  | (.xferFail k, e) => .failed (.busTransfer k) (emitBytes (bytes.take k) (s.setEnv e))
  | (.never, _) => .hung

/-- `wait(t)` (R23): cannot fail. -/
def waitMs (t : Nat) (s : State) : Performed := .done (emit (.wait t) s)

/-- A micro-operation by its rule. -/
def perform (u : MicroOp) (s : State) : Performed :=
  match u with
  | .driveCs l => driveCs l s
  | .driveRst l => driveRst l s
  | .txFrame bytes => txFrame bytes s
  | .wait t => waitMs t s

/-! ### The sequencer -/

/-- After a micro-operation that did not raise: `SEQ <- rest`, and the command completes if nothing is left (R24). -/
def advance (rest : List MicroOp) (s : State) : State :=
  match rest with
  | [] => complete codeNone none (s.setSeq [])
  | _ :: _ => s.setSeq rest

/-- A failure inside a command (R134); the transaction that failed leaves the downstream view open (R37, U2). -/
def failCommand (f : Failure) (s : State) : State := raise f (openDownstream s)

/-- The sequencer's step (R24). A micro-operation the environment never answers leaves the state as it is (R131). -/
def microStep (s : State) : State :=
  match s.seq with
  | [] => s
  | u :: rest =>
    match perform u s with
    | .done t => advance rest t
    | .failed f t => failCommand f t
    | .hung => s

/-- `n` steps of the sequencer. -/
def microSteps : Nat → State → State
  | 0, s => s
  | n + 1, s => microSteps n (microStep s)

/-- A whole expansion in order, as one big step (R14): stops at the first failure, and where the environment never
answers. -/
def performAll : List MicroOp → State → State
  | [], s => s
  | u :: rest, s =>
    match perform u s with
    | .done t => if rest = [] then advance [] t else performAll rest t
    | .failed f t => failCommand f t
    | .hung => s.setSeq (u :: rest)

/-! ### Acceptance -/

/-- `accept(c)` (R19): refusal before illegality (R137), then the immediate effect and `SEQ <- expand(c)`. -/
def accept (wellFormed : Bool) (immediate : State → State) (result : Option (List Pixel)) (expansion : List MicroOp)
    (s : State) : State :=
  if s.fault ≠ 0 then complete codeFaulted none s
  else if wellFormed = false then raise .illegalCommand s
  else
    let t := immediate s
    if expansion = [] then complete codeNone result (t.setSeq []) else t.setSeq expansion

/-- A command from acceptance to its end (R14: as one big step). The port is not ready while `SEQ` is not empty (R19,
R63): the command is then not accepted and the state stays. -/
def runCommand (wellFormed : Bool) (immediate : State → State) (result : Option (List Pixel))
    (expansion : List MicroOp) (s : State) : State :=
  if s.seq = [] then
    let t := accept wellFormed immediate result expansion s
    performAll t.seq t
  else s

/-- A command word that is not well formed is presented (R59, R133). -/
def illegalCommand (s : State) : State := runCommand false id none [] s

/-! ### Block reset -/

/-- A block reset that fails: `FAULT <- c; emit(FAIL(c)); stop` (R151). It ends with the code (R140), which the host is handed as
a completion code, since it learns of `FAULT` in no other way (R102, R136; log entry 32). -/
def resetFails (c : BitVec 3) (s : State) : State := complete c none (emit (.fail c) (s.setFault c))

/-- Every state element of the block at its value of R27. The controller's pins during construction are outside the
source, so the downstream view is left open (log entry 11). -/
def resetElements (speedHz : U32) (s : State) : State :=
  openDownstream
    { s with
      csN := .high, rstN := .high, speedHz := speedHz, speedActive := speedHz, spiMode := Config.spiMode, seq := [],
      fault := 0, trace := [], ctrl := { s.ctrl with rx := none } }

/-- The code of a resource that cannot be acquired (R151). -/
def Resource.code : Resource → BitVec 3
  | .csLine | .rstLine => 3
  | .bus => 1

/-- The environment's answer for a resource (R151). -/
def askResource : Resource → Env → PinAnswer × Env
  | .csLine, e | .rstLine, e => askGpio e
  | .bus, e => askOpen e

/-- The acquisitions of block reset, in order (R151): the first failure ends it, and in the end the bus is open at
`SPEED_HZ` and block reset ends with code 0 (R140; log entry 32). Where the environment never answers block reset stays inside that acquisition (R131). -/
def acquireAll : List Resource → State → State
  | [], s => complete codeNone none (s.setSpeedActive s.speedHz)
  | r :: rs, s =>
    match askResource r s.env with
    | (.ok, e) => acquireAll rs (s.setEnv e)
    | (.fail, e) => resetFails r.code (s.setEnv e)
    | (.never, _) => s.setHostSeq (.acquire (r :: rs) :: s.hostSeq)

/-- Block reset (R150, R151): first every element takes its reset value, then the chip-select line, the reset line and the
bus are acquired. -/
def blockReset (speedHz : U32) (s : State) : State :=
  acquireAll [.csLine, .rstLine, .bus] (resetElements speedHz s)

end Sys2Proof.Machine
end

