-- ==== Sys2Proof/Machine/Frames.lean ====
section
/-! DEFINITION. The wire frames of the opcode table as the controller executes them on receiving them complete and
bracketed (20_memory.md R34 to R37). They touch the downstream view only (log entry 15). Two points
are the model's choice: they act whatever level the reset line has, since what a controller held in reset does with a frame
is not said (log entry 31); and a frame from outside is a bracket of its own also while a bracket of the block is open, whose
bytes it leaves as they are (log entry 33). -/

namespace Sys2Proof.Machine

/-- `IDXFRAME a` (R34): `SEL <- a`. -/
def execIdxframe (a : U16) (s : State) : Host.Outcome State Fault Refusal := .next (selectIndex a s)

/-- `DATFRAME v` (R35, R36): `REGS[SEL] <- v`, or one pixel when `SEL = 0x0022`. -/
def execDatframe (v : U16) (s : State) : Host.Outcome State Fault Refusal := .next (receiveData v s)

/-- `GRAMSEL` (R51, R34): `SEL <- 0x0022`. -/
def execGramsel (s : State) : Host.Outcome State Fault Refusal := .next (selectIndex Config.gramReg s)

/-- `PIXFRAME ps` (R36, R37): the pixels at `WPTR`, in order. -/
def execPixframe (ps : List Pixel) (s : State) : Host.Outcome State Fault Refusal := .next (receiveStream ps s)

end Sys2Proof.Machine
end

