-- ==== Sys2Proof/Machine/PixelPack.lean ====
section
/-! DEFINITION. Unit PCK: the function `pack565` and the command `PACK` (42_pixel_pack.md R90 to R95). -/

namespace Sys2Proof.Machine

/-- `byte0` of `pack565` (R90). -/
def packByte0 (r g : BitVec 8) : BitVec 8 := ((r >>> 3) <<< 3) ||| ((g >>> 2) >>> 3)

/-- `byte1` of `pack565` (R90). -/
def packByte1 (g b : BitVec 8) : BitVec 8 := (b >>> 3) ||| (((g >>> 2) &&& 0x07) <<< 5)

/-- `pack565(R, G, B)` (R90). -/
def pack565 (r g b : BitVec 8) : BitVec 8 × BitVec 8 := (packByte0 r g, packByte1 g b)

/-- The packed pixel `{byte0, byte1}` (R91) of one RGB888 word (R58). -/
def packPixel (p : Rgb) : Pixel :=
  let bytes := pack565 (p.extractLsb' 16 8) (p.extractLsb' 8 8) (p.extractLsb' 0 8)
  joinBytes bytes.1 bytes.2

/-- `PACK WxH inbuf` (R92): the result buffer is handed to the host; nothing else changes. -/
def execPack (w h : U16) (inbuf : List Rgb) (s : State) : Host.Outcome State Fault Refusal :=
  .next (runCommand (Instr.payloadOk (.pack w h inbuf)) id (some (inbuf.map packPixel)) [] s)

end Sys2Proof.Machine
end

