-- ==== Sys2Proof/Machine/PixelStream.lean ====
section
/-! DEFINITION. The pixel stream command `STRM` (41_pixel_stream.md R80 to R83). -/

namespace Sys2Proof.Machine

/-- `STRM WxH buf` (R80): the GRAM-select frame, then the whole buffer in one frame. `W` and `H` only give the
payload's length (R59). -/
def execStrm (w h : U16) (buf : List Pixel) (s : State) : Host.Outcome State Fault Refusal :=
  .next (runCommand (Instr.payloadOk (.strm w h buf)) id none (expandStrm buf) s)

end Sys2Proof.Machine
end

