-- ==== Sys2Proof/Machine/RegisterWrite.lean ====
section
/-! DEFINITION. The register-write commands `WRIDX`, `WRDAT`, `WRREG` (40_register_write.md R70 to R73). -/

namespace Sys2Proof.Machine

/-- `WRIDX addr` (R70): one index frame in its bracket. -/
def execWridx (addr : U16) (s : State) : Host.Outcome State Fault Refusal :=
  .next (runCommand true id none (expandWridx addr) s)

/-- `WRDAT value` (R71): one data frame in its bracket, whatever was sent before. -/
def execWrdat (value : U16) (s : State) : Host.Outcome State Fault Refusal :=
  .next (runCommand true id none (expandWrdat value) s)

/-- `WRREG addr, value` (R72): the index frame and then the data frame, with nothing between. -/
def execWrreg (addr value : U16) (s : State) : Host.Outcome State Fault Refusal :=
  .next (runCommand true id none (expandWrreg addr value) s)

end Sys2Proof.Machine
end

