-- ==== Sys2Proof/Machine/System.lean ====
section
/-! DEFINITION. The system commands `RSTP` and `SETSPD` (43_system.md R100 to R102). -/

namespace Sys2Proof.Machine

/-- `RSTP` (R100): inactive, active, inactive, with the three minimum waits. -/
def execRstp (s : State) : Host.Outcome State Fault Refusal :=
  .next (runCommand true id none expandRstp s)

/-- `SETSPD hz` (R101): `SPEED_HZ <- hz`; `SPEED_ACTIVE` is not written. -/
def execSetspd (hz : U32) (s : State) : Host.Outcome State Fault Refusal :=
  .next (runCommand true (State.setSpeedHz hz) none [] s)

end Sys2Proof.Machine
end

