-- ==== Sys2Proof/Machine/Dispatch.lean ====
section
/-! DEFINITION. One arm for each constructor of Instr. -/

namespace Sys2Proof.Machine

def exec (i : Instr) (s : State) : Host.Outcome State Fault Refusal :=
  match i with
  | .wridx addr => Sys2Proof.Machine.execWridx addr s
  | .wrdat value => Sys2Proof.Machine.execWrdat value s
  | .wrreg addr value => Sys2Proof.Machine.execWrreg addr value s
  | .strm w h buf => Sys2Proof.Machine.execStrm w h buf s
  | .rstp => Sys2Proof.Machine.execRstp s
  | .pack w h inbuf => Sys2Proof.Machine.execPack w h inbuf s
  | .setspd hz => Sys2Proof.Machine.execSetspd hz s
  | .idxframe a => Sys2Proof.Machine.execIdxframe a s
  | .datframe v => Sys2Proof.Machine.execDatframe v s
  | .gramsel => Sys2Proof.Machine.execGramsel s
  | .pixframe ps => Sys2Proof.Machine.execPixframe ps s

end Sys2Proof.Machine
end

