-- ==== Sys2Proof/Machine/Driver.lean ====
section
/-! DEFINITION. The host: ControllerDriver's operations as sequences of the block's commands
(44_host_sequences.md R110 to R120). -/

namespace Sys2Proof.Machine

/-! ### The addressing window (R114, R119) -/

/-- `clamp(v, lo, hi)` on mathematical integers (R6, R119). -/
def clamp (v lo hi : Int) : Int := min (max v lo) hi

/-- An addressing window `{x0, y0, x1, y1}` in panel coordinates (R114). -/
structure AddressWindow where
  x0 : Int
  y0 : Int
  x1 : Int
  y1 : Int
deriving DecidableEq, Repr

/-- The window of a draw at origin `(x, y)` of a buffer `w` wide and `h` high (R114): each coordinate is clamped by
itself, nothing is rejected, also for an empty buffer (U9). -/
def drawWindow (x y w h : Int) : AddressWindow :=
  { x0 := clamp x 0 (Config.panelW - 1)
    y0 := clamp y 0 (Config.panelH - 1)
    x1 := clamp (x + w - 1) 0 (Config.panelW - 1)
    y1 := clamp (y + h - 1) 0 (Config.panelH - 1) }

/-! ### The sequences -/

/-- Give one command, wait, and stop at a completion code other than 0. -/
def giveChecked (h : OnFail) (i : Instr) : List HostStep := [.give i, .check h]

/-- `SETWIN x0, y0, x1, y1` (R115): the two start registers before the two end registers. -/
def setWinSteps (p : HostParams) (x0 y0 x1 y1 : U16) : List HostStep :=
  giveChecked .operation (.wrreg p.regHStart x0) ++ giveChecked .operation (.wrreg p.regVStart y0) ++
    giveChecked .operation (.wrreg p.regHEnd x1) ++ giveChecked .operation (.wrreg p.regVEnd y1)

/-- The register writes of a group as items. -/
def writeItems (writes : List RegWrite) : List InitItem := writes.map fun w => .write w.addr w.value

/-- The items of the power sequencing group: writes with the two delays among them (R113). -/
def powerItems (g : PowerGroup) : List InitItem :=
  writeItems (g.first :: g.before) ++ [.delay g.delay1.ms] ++ writeItems g.between ++ [.delay g.delay2.ms] ++
    writeItems (g.after ++ [g.last])

/-- `INIT_SEQ`: its six groups in order (R113). -/
def initSeq (p : HostParams) : List InitItem :=
  writeItems p.entryMode ++ writeItems p.timing ++ powerItems p.power ++ writeItems p.gamma ++
    writeItems p.window ++ writeItems p.displayOn

/-- One item of `INIT_SEQ` (R113). -/
def initItemSteps : InitItem → List HostStep
  | .write addr value => giveChecked .construction (.wrreg addr value)
  | .delay ms => [.delay ms]

/-- `INIT` (R113): `RSTP` and then `INIT_SEQ` in order; `Ready` only after all of it (R111). -/
def initSteps (p : HostParams) : List HostStep :=
  [.setDrv .initializing] ++ giveChecked .construction .rstp ++ (initSeq p).flatMap initItemSteps ++
    [.setDrv .ready]

/-- `NEW` (R112): block reset, then, if it ended with code 0 (R140), `INIT`, then the driver. -/
def newSteps (p : HostParams) (speedHz : U32) : List HostStep :=
  [.blockReset speedHz, .setDrv .uninitialized, .check .construction] ++ initSteps p ++ [.ret .driver]

/-- `DRAWREGION x, y, buffer` on a driver that is `Ready` (R116): pack, window, stream. -/
def drawRegionSteps (p : HostParams) (x y : Int) (buf : PixelBuffer) : List HostStep :=
  let win := drawWindow x y buf.w.toNat buf.h.toNat
  giveChecked .operation (.pack buf.w buf.h buf.px) ++
    setWinSteps p (BitVec.ofInt 16 win.x0) (BitVec.ofInt 16 win.y0) (BitVec.ofInt 16 win.x1)
      (BitVec.ofInt 16 win.y1) ++
    [.stream buf.w buf.h, .check .operation, .ret .done]

/-- A draw needs a driver that is `Ready`; otherwise the block is given no command (R118). -/
def drawSteps (p : HostParams) (drv : DrvState) (x y : Int) (buf : PixelBuffer) : List HostStep :=
  if drv = .ready then drawRegionSteps p x y buf else [.ret .notInitialized]

/-- The sequence an operation of the driver starts. The draws alone ask for a driver that is `Ready` (R118); that `SETWIN` and
`GETSIZE` run in every `DRV_STATE`, also after a construction that failed (U12), is the model's choice (log entry 20). -/
def opSteps (p : HostParams) (drv : DrvState) : HostOp → List HostStep
  | .new hz => newSteps p hz
  | .setWin x0 y0 x1 y1 => setWinSteps p x0 y0 x1 y1 ++ [.ret .done]
  | .drawRegion x y buf => drawSteps p drv x y buf
  | .drawFull buf => drawSteps p drv 0 0 buf
  | .getSize => [.ret (.size Config.panelW Config.panelH)]

/-! ### Following a sequence -/

/-- The code handed to the host last: that of the last command, or of a block reset (R24, R140). -/
def lastCode (s : State) : BitVec 3 :=
  match s.completions.getLast? with
  | some c => c.code
  | none => codeNone

/-- The buffer `PACK` returned last (R92: the host passes it to `STRM`). -/
def lastResult (s : State) : List Pixel :=
  (s.completions.reverse.findSome? Completion.result).getD []

/-- An entry of the host's log. -/
def logHost (e : HostEvent) (s : State) : State := { s with hostLog := s.hostLog ++ [e] }

/-- A code other than 0 ends the sequence (R113, R116): a construction has failed for good (R111, R140). -/
def failHost (h : OnFail) (code : BitVec 3) (s : State) : State :=
  match h with
  | .construction => logHost (.returned (.constructionFailure code)) ((s.setDrv .failed).setHostSeq [])
  | .operation => logHost (.returned (.error code)) (s.setHostSeq [])

end Sys2Proof.Machine
end

