-- ==== Sys2Proof/Machine/Port.lean ====
section
/-! DEFINITION. What runs next: the micro-operation at the head of `SEQ` (10_state.md R24), the next step of a host
sequence, or what the host presents (R19, R63). The machine's step calls this. -/

namespace Sys2Proof.Machine

/-- An instruction reaches the machine as bytes. A command that is not well formed is illegal (R59, R133); a frame that
is none leaves the downstream view open (R37, U10). -/
def runPacket (p : Packet) (s : State) : Host.Outcome State Fault Refusal :=
  match decode p with
  | .ok i => exec i s
  | .error _ =>
    match p with
    | .command _ => .next (illegalCommand s)
    | .frame _ => .next (openDownstream s)

/-- One step of a host sequence. The host decides by completion codes only, and reads no element of the block (R102, R136). -/
def runHostStep (h : HostStep) (s : State) : Host.Outcome State Fault Refusal :=
  match h with
  | .blockReset hz => .next (blockReset hz s)
  | .acquire rs => .next (acquireAll rs s)
  | .setDrv d => .next (s.setDrv d)
  | .give i => exec i s
  | .check h => .next (if lastCode s = 0 then s else failHost h (lastCode s) s)
  | .stream w h => exec (.strm w h (lastResult s)) s
  | .delay ms => .next (logHost (.delayed ms) s)
  | .ret r => .next (logHost (.returned r) s)

/-- The next step of the machine with host parameters `p`. With nothing in progress and nothing presented the block is
idle, and its state does not change (R24). -/
def runNext (p : HostParams) (s : State) : Host.Outcome State Fault Refusal :=
  match s.seq with
  | _ :: _ => .next (microStep s)
  | [] =>
    match s.hostSeq with
    | h :: rest => runHostStep h (s.setHostSeq rest)
    | [] =>
      match s.inbox with
      | .packet pkt :: rest => runPacket pkt (s.setInbox rest)
      | .host op :: rest => .next ((s.setInbox rest).setHostSeq (opSteps p s.drv op))
      | [] => .next s

/-- An instruction of the opcode table placed where the machine takes its next one: at the head of what is presented,
with no command and no host sequence in progress. -/
def placeTableWord (s : State) (nbits w : Nat) : State :=
  match tablePacket nbits w with
  | some p => ((s.setSeq []).setHostSeq []).setInbox (.packet p :: s.inbox)
  | none => s

end Sys2Proof.Machine
end

