-- ==== Sys2Proof/Machine/Step.lean ====
section
/-! DEFINITION. The machine's step, and the placing of an instruction where it takes its next one. -/

namespace Sys2Proof.Machine

/-- One step of the machine (10_state.md R19, R24), with the open host parameters of Config. -/
def step (s : State) : Host.Outcome State Fault Refusal := runNext Config.hostParams s

/-- The state with this word of the opcode table as what step takes next. -/
def State.withFetchWord (s : State) (nbits w : Nat) : State := placeTableWord s nbits w

end Sys2Proof.Machine
end

