-- ==== Sys2Proof/Safety.lean ====
section
/-! DEFINITION. What the claims speak of: normal operation, what a run leaves on the lines, and the invariant of the
block (10_state.md R25). -/

namespace Sys2Proof.Machine

/-! ### Normal operation -/

/-- The block accepts a command and every answer of the environment is `ok` (R19, R131). -/
def NormalOperation (s : State) : Prop := s.fault = 0 ∧ s.seq = [] ∧ s.env.allOk = true

/-- The machine takes what the host presents next: no command and no host sequence is in progress. -/
def Idle (s : State) : Prop := s.seq = [] ∧ s.hostSeq = []

/-! ### What stays -/

/-- The bus configuration is as before (R17). -/
def SpeedSame (s t : State) : Prop :=
  t.speedHz = s.speedHz ∧ t.speedActive = s.speedActive ∧ t.spiMode = s.spiMode

/-- The host's state is as before. -/
def HostSame (s t : State) : Prop :=
  t.inbox = s.inbox ∧ t.hostSeq = s.hostSeq ∧ t.drv = s.drv ∧ t.hostLog = s.hostLog

/-- Everything but the downstream view is as before. -/
def BlockSame (s t : State) : Prop :=
  t.csN = s.csN ∧ t.rstN = s.rstN ∧ SpeedSame s t ∧ t.seq = s.seq ∧ t.fault = s.fault ∧ t.trace = s.trace ∧
    t.completions = s.completions ∧ t.env = s.env ∧ HostSame s t

/-- Two memories read the same outside these numbers. -/
def SameOutside (targets : List Nat) (m m' : Memory) : Prop :=
  ∀ a, a ∉ targets → Memory.read m' a = Memory.read m a

/-- A command ended well with chip-select inactive: `SEQ` empty, no failure, one completion of code 0. -/
def EndsWell (s t : State) : Prop :=
  t.csN = .high ∧ t.seq = [] ∧ t.fault = 0 ∧ t.completions = s.completions ++ [⟨0, none⟩] ∧
    t.env.allOk = true

/-! ### Events -/

/-- The events of one frame in its bracket (R51). -/
def bracketEvents (frame : List Byte) : List Event := .cs .low :: (frame.map Event.tx ++ [.cs .high])

/-- The events of a successful `WRREG` (R72). -/
def wrregEvents (addr value : U16) : List Event :=
  bracketEvents [0x70, hiByte addr, loByte addr] ++ bracketEvents [0x72, hiByte value, loByte value]

/-- The events of a successful `STRM` (R80). -/
def strmEvents (buf : List Pixel) : List Event :=
  bracketEvents [0x70, 0x00, 0x22] ++ bracketEvents (0x72 :: pixelBytes buf)

/-- The events of a successful `RSTP` (R100). -/
def rstpEvents : List Event :=
  [.rst .high, .wait 10, .rst .low, .wait 10, .rst .high, .wait 50]

/-- The events of one item of `INIT_SEQ` (R113): a host delay leaves none. -/
def initItemEvents : InitItem → List Event
  | .write addr value => wrregEvents addr value
  | .delay _ => []

/-- The log entries of one item of `INIT_SEQ`: only a host delay leaves one. -/
def initItemLog : InitItem → List HostEvent
  | .write _ _ => []
  | .delay ms => [.delayed ms]

/-! ### The host's sequences -/

/-- The step gives the block a command. -/
def HostStep.isCommand : HostStep → Bool
  | .give _ | .stream _ _ => true
  | .blockReset _ | .acquire _ | .setDrv _ | .check _ | .delay _ | .ret _ => false

/-- What a failure inside an operation of the driver ends: a construction, or the operation alone. -/
def HostOp.onFail : HostOp → OnFail
  | .new _ => .construction
  | .setWin _ _ _ _ | .drawRegion _ _ _ | .drawFull _ | .getSize => .operation

/-! ### Acceptance alone (R19) -/

/-- The state in which a command has been accepted and none of its micro-operations performed. A wire frame is no
command. -/
def accepted (i : Instr) (s : State) : State :=
  match i with
  | .wridx addr => accept true id none (expandWridx addr) s
  | .wrdat value => accept true id none (expandWrdat value) s
  | .wrreg addr value => accept true id none (expandWrreg addr value) s
  | .strm w h buf => accept (Instr.payloadOk (.strm w h buf)) id none (expandStrm buf) s
  | .rstp => accept true id none expandRstp s
  | .pack w h inbuf => accept (Instr.payloadOk (.pack w h inbuf)) id (some (inbuf.map packPixel)) [] s
  | .setspd hz => accept true (State.setSpeedHz hz) none [] s
  | .idxframe _ | .datframe _ | .gramsel | .pixframe _ => s

/-! ### The trace (R25) -/

/-- The chip-select level after a trace that began at level `l`. -/
def levelFrom : Level → List Event → Level
  | l, [] => l
  | _, .cs l' :: es => levelFrom l' es
  | l, .rst _ :: es => levelFrom l es
  | l, .tx _ :: es => levelFrom l es
  | l, .wait _ :: es => levelFrom l es
  | l, .fail _ :: es => levelFrom l es

/-- The levels of the `CS` events, in order. -/
def csLevels (tr : List Event) : List Level :=
  tr.filterMap fun e => match e with
    | .cs l => some l
    | .rst _ | .tx _ | .wait _ | .fail _ => none

/-- The other level. -/
def Level.flip : Level → Level
  | .low => .high
  | .high => .low

/-- The list is `l`, its opposite, `l`, ... (R25 item 2). -/
def alternates : Level → List Level → Bool
  | _, [] => true
  | l, l' :: ls => decide (l = l') && alternates l.flip ls

/-- Every `TX` was emitted with `CS_N = 0` (R25 item 3). -/
def TxInBracket (tr : List Event) : Prop :=
  ∀ pre b post, tr = pre ++ Event.tx b :: post → levelFrom .high pre = .low

/-- An event is neither a byte nor a chip-select drive. -/
def Event.isOther : Event → Bool
  | .tx _ | .cs _ => false
  | .rst _ | .wait _ | .fail _ => true

/-- The first `TX` after every `CS(0)` carries 0x70 or 0x72 (R25 item 4). -/
def StartByteFirst (tr : List Event) : Prop :=
  ∀ pre mid b post, tr = pre ++ Event.cs .low :: (mid ++ Event.tx b :: post) → mid.all Event.isOther = true →
    b = 0x70 ∨ b = 0x72

/-- An event of the reset line or a wait. -/
def Event.isRstOrWait : Event → Bool
  | .rst _ | .wait _ => true
  | .cs _ | .tx _ | .fail _ => false

/-- Every `RST` and `WAIT` was emitted with `CS_N = 1` (R25 item 5). -/
def RstWaitOutside (tr : List Event) : Prop :=
  ∀ pre e post, tr = pre ++ e :: post → e.isRstOrWait = true → levelFrom .high pre = .high

/-- Nothing follows a `FAIL` (R25 item 6). -/
def FailEnds (tr : List Event) : Prop :=
  ∀ pre k post, tr = pre ++ Event.fail k :: post → post = []

/-! ### The sequencer -/

/-- A bracket has been opened and nothing sent in it yet. -/
def freshBracket (tr : List Event) : Bool := decide (tr.getLast? = some (.cs .low))

/-- A frame begins with one of the two start bytes (R60). -/
def startsFrame : List Byte → Bool
  | [] => false
  | b :: _ => decide (b = 0x70 ∨ b = 0x72)

/-- What may remain of a command at this chip-select level: brackets with one frame each, and between them drives of
the reset line and waits (R70 to R72, R80, R100). -/
def seqOk : Level → Bool → List MicroOp → Bool
  | .high, _, [] => true
  | .high, _, .driveCs .low :: r => seqOk .low true r
  | .high, _, .driveRst _ :: r => seqOk .high false r
  | .high, _, .wait _ :: r => seqOk .high false r
  | .low, true, .txFrame f :: r => startsFrame f && seqOk .low false r
  | .low, false, .driveCs .high :: r => seqOk .high false r
  | _, _, _ => false

/-- The level of the reset line when what remains has been done. -/
def rstAfter : Level → List MicroOp → Level
  | l, [] => l
  | _, .driveRst l' :: r => rstAfter l' r
  | l, .driveCs _ :: r => rstAfter l r
  | l, .txFrame _ :: r => rstAfter l r
  | l, .wait _ :: r => rstAfter l r

/-! ### Block reset in progress -/

/-- The step waits inside an acquisition of block reset (R151). -/
def HostStep.isAcquire : HostStep → Bool
  | .acquire _ => true
  | .blockReset _ | .setDrv _ | .give _ | .check _ | .stream _ _ | .delay _ | .ret _ => false

/-- The step begins block reset or goes on with one. -/
def HostStep.isReset : HostStep → Bool
  | .blockReset _ | .acquire _ => true
  | .setDrv _ | .give _ | .check _ | .stream _ _ | .delay _ | .ret _ => false

/-- What the machine does next is block reset. -/
def ResetNext (s : State) : Prop := s.seq = [] ∧ ∃ h rest, s.hostSeq = h :: rest ∧ h.isReset = true

/-- Every element of the block has its value of R27, with this `SPEED_RESET`. -/
def BlockReset (hz : U32) (s : State) : Prop :=
  s.csN = .high ∧ s.rstN = .high ∧ s.speedHz = hz ∧ s.speedActive = hz ∧ s.spiMode = 3 ∧ s.seq = [] ∧
    s.fault = 0 ∧ s.trace = []

/-! ### The invariant -/

/-- What every step keeps: the trace of R25, the lines, `FAULT` and `SEQ` as they hang together, the constant
`SPI_MODE`, and the canonical form of the controller's memories. -/
structure BlockInv (s : State) : Prop where
  /-- `SPI_MODE` is 3 (R17). -/
  spi : s.spiMode = 3
  /-- `CS_N` is the level of the last `CS` event, 1 before the first (R11, R27). -/
  csLevel : s.csN = levelFrom .high s.trace
  /-- R25 item 2. -/
  csAlternates : alternates .low (csLevels s.trace) = true
  /-- R25 item 3. -/
  txInBracket : TxInBracket s.trace
  /-- R25 item 4. -/
  startByte : StartByteFirst s.trace
  /-- R25 item 5. -/
  rstWait : RstWaitOutside s.trace
  /-- R25 item 6. -/
  failEnds : FailEnds s.trace
  /-- `FAULT` is the code of the `FAIL` that ends the trace (R15). -/
  faultCode : s.fault ≠ 0 → s.trace.getLast? = some (.fail s.fault)
  /-- No `FAIL` without `FAULT`. -/
  noFail : s.fault = 0 → ∀ k, Event.fail k ∉ s.trace
  /-- Code 5 and the reserved codes are never stored (R130). -/
  faultRange : s.fault.toNat ≤ 4
  /-- After a failure nothing remains of the command (R134). -/
  seqDropped : s.fault ≠ 0 → s.seq = []
  /-- What remains of a command fits the chip-select level; with `SEQ = []` this is R25 item 1. -/
  seqFits : s.fault = 0 → seqOk s.csN (freshBracket s.trace) s.seq = true
  /-- A command that succeeds leaves the reset line inactive. -/
  rstInactive : s.fault = 0 → rstAfter s.rstN s.seq = .high
  /-- A block reset that waits has set its elements and emitted nothing (R151). -/
  resetWaits : ∀ rs rest, s.hostSeq = .acquire rs :: rest → s.seq = [] ∧ s.fault = 0 ∧ s.trace = []
  /-- Only what is next can be a block reset that waits. -/
  resetFirst : ∀ h ∈ s.hostSeq.tail, h.isAcquire = false
  /-- `REGS` is in canonical form. -/
  regsWf : Memory.wf s.ctrl.regs
  /-- Register indices have 16 bits (R31). -/
  regsRange : ∀ e ∈ s.ctrl.regs, e.1 < 65536
  /-- GRAM is in canonical form. -/
  gramWf : Memory.wf s.ctrl.gram

end Sys2Proof.Machine
end

