-- ==== Sys2Proof/Certificates/Slice0/Obligations.lean ====
section
/-! DEFINITION. The statements for the provers. Rules R<n> are those of spec/. -/

open Sys2Proof Sys2Proof.Machine

/-! ### Reset -/

/-- R27: the value of every element of the block after block reset. -/
def Obligations.ResetHoldsBlockValues : Prop :=
  State.reset.csN = .high ∧ State.reset.rstN = .high ∧ State.reset.speedHz = Config.speedReset ∧
    State.reset.speedActive = Config.speedReset ∧ State.reset.spiMode = 3 ∧ State.reset.seq = [] ∧
    State.reset.fault = 0 ∧ State.reset.trace = []

/-- 70_reset_and_hazards.md, R151: the elements take their values, then the chip-select line, the reset line and the bus are
acquired in that order; the first failure is recorded and ends the reset, and where the environment never answers the
block stays inside that acquisition with its elements set (60_exceptions.md, R131). The order of the three attempts is the
spec's own (decisions D7, D9). That the host is handed the code block reset ends with as a completion code is the model's
choice (log entry 32). -/
def Obligations.BlockResetAcquiresInOrder : Prop :=
  ∀ (hz : U32) (rest : List HostStep) (s : State), s.seq = [] → s.hostSeq = .blockReset hz :: rest →
    let a1 := askGpio s.env
    let a2 := askGpio a1.2
    let a3 := askOpen a2.2
    let ends := fun (code : BitVec 3) (events : List Event) => ∃ t, step s = .next t ∧
      t.csN = .high ∧ t.rstN = .high ∧ t.speedHz = hz ∧ t.speedActive = hz ∧ t.spiMode = 3 ∧ t.seq = [] ∧
      t.fault = code ∧ t.trace = events ∧ t.hostSeq = rest ∧ t.inbox = s.inbox ∧ t.drv = s.drv ∧
      t.hostLog = s.hostLog ∧ t.completions = s.completions ++ [⟨code, none⟩]
    let hangs := ∃ t, step s = .next t ∧ BlockReset hz t ∧ t.inbox = s.inbox ∧ t.drv = s.drv ∧
      t.hostLog = s.hostLog ∧ t.completions = s.completions ∧ ∀ n, Host.Core.run Sys2Proof.core n t = .next t
    (a1.1 = .fail → ends 3 [.fail 3]) ∧
      (a1.1 = .never → hangs) ∧
      (a1.1 = .ok → a2.1 = .fail → ends 3 [.fail 3]) ∧
      (a1.1 = .ok → a2.1 = .never → hangs) ∧
      (a1.1 = .ok → a2.1 = .ok → a3.1 = .fail → ends 1 [.fail 1]) ∧
      (a1.1 = .ok → a2.1 = .ok → a3.1 = .never → hangs) ∧
      (a1.1 = .ok → a2.1 = .ok → a3.1 = .ok → ends 0 [])

/-! ### The commands in normal operation: what each does, and its frame -/

/-- `WRIDX` (40_register_write.md): one index frame; the controller selects the register. `WPTR` is left open for the
GRAM index only (log entry 12). -/
def Obligations.WridxSendsIndexFrame : Prop :=
  ∀ (addr : U16) (s : State), NormalOperation s → ∃ t, exec (.wridx addr) s = .next t ∧
    t.trace = s.trace ++ [.cs .low, .tx 0x70, .tx (addr.extractLsb' 8 8), .tx (addr.extractLsb' 0 8), .cs .high] ∧
    EndsWell s t ∧ t.rstN = s.rstN ∧ SpeedSame s t ∧ HostSame s t ∧
    t.ctrl.sel = addr ∧ SameOutside [] s.ctrl.regs t.ctrl.regs ∧ SameOutside [] s.ctrl.gram t.ctrl.gram ∧
    (addr ≠ 0x0022 → t.ctrl.wptr = s.ctrl.wptr)

/-- `WRDAT` (40_register_write.md): one data frame, whatever was sent before; the selected register takes the value,
or GRAM one pixel at `WPTR`. That this is so for the second of two data frames in a row too is the model's choice (log
entry 30). -/
def Obligations.WrdatSendsDataFrame : Prop :=
  ∀ (value : U16) (s : State), NormalOperation s → ∃ t, exec (.wrdat value) s = .next t ∧
    t.trace = s.trace ++ [.cs .low, .tx 0x72, .tx (value.extractLsb' 8 8), .tx (value.extractLsb' 0 8), .cs .high] ∧
    EndsWell s t ∧ t.rstN = s.rstN ∧ SpeedSame s t ∧ HostSame s t ∧ t.ctrl.sel = s.ctrl.sel ∧
    (s.ctrl.sel ≠ 0x0022 → Memory.read t.ctrl.regs s.ctrl.sel.toNat = value ∧
      SameOutside [s.ctrl.sel.toNat] s.ctrl.regs t.ctrl.regs ∧ SameOutside [] s.ctrl.gram t.ctrl.gram) ∧
    (s.ctrl.sel = 0x0022 → Memory.read t.ctrl.gram s.ctrl.wptr = value ∧
      SameOutside [s.ctrl.wptr] s.ctrl.gram t.ctrl.gram ∧ SameOutside [] s.ctrl.regs t.ctrl.regs)

/-- `WRREG` (40_register_write.md): the index frame and then the data frame with no event between them; the register
named takes the value. For index 0x0022 the value is one pixel, at `WPTR` as the select left it. -/
def Obligations.WrregWritesRegister : Prop :=
  ∀ (addr value : U16) (s : State), NormalOperation s → ∃ t, exec (.wrreg addr value) s = .next t ∧
    t.trace = s.trace ++
      [.cs .low, .tx 0x70, .tx (addr.extractLsb' 8 8), .tx (addr.extractLsb' 0 8), .cs .high,
        .cs .low, .tx 0x72, .tx (value.extractLsb' 8 8), .tx (value.extractLsb' 0 8), .cs .high] ∧
    EndsWell s t ∧ t.rstN = s.rstN ∧ SpeedSame s t ∧ HostSame s t ∧ t.ctrl.sel = addr ∧
    (addr ≠ 0x0022 → Memory.read t.ctrl.regs addr.toNat = value ∧
      SameOutside [addr.toNat] s.ctrl.regs t.ctrl.regs ∧ SameOutside [] s.ctrl.gram t.ctrl.gram) ∧
    (addr = 0x0022 →
      let at0 := (selectIndex 0x0022 s).ctrl.wptr
      Memory.read t.ctrl.gram at0 = value ∧ SameOutside [at0] s.ctrl.gram t.ctrl.gram ∧
        SameOutside [] s.ctrl.regs t.ctrl.regs)

/-- `STRM` (41_pixel_stream.md): the GRAM-select frame, then the whole buffer in one frame; the pixels are written in
order where `WPTR` passes. Of an empty buffer nothing is claimed downstream (log entry 13). -/
def Obligations.StrmStreamsWholeBuffer : Prop :=
  ∀ (w h : U16) (buf : List Pixel) (s : State), NormalOperation s → buf.length = w.toNat * h.toNat →
    ∃ t, exec (.strm w h buf) s = .next t ∧
      t.trace = s.trace ++ [.cs .low, .tx 0x70, .tx 0x00, .tx 0x22, .cs .high, .cs .low, .tx 0x72] ++
        (pixelBytes buf).map Event.tx ++ [.cs .high] ∧
      EndsWell s t ∧ t.rstN = s.rstN ∧ SpeedSame s t ∧ HostSame s t ∧
      (buf ≠ [] →
        let u := selectIndex 0x0022 s
        let targets := pixelTargets u.ctrl.regs buf.length u.free u.ctrl.wptr
        t.ctrl.sel = 0x0022 ∧ t.ctrl.gram = Memory.writeAll s.ctrl.gram (targets.zip buf) ∧
          SameOutside targets s.ctrl.gram t.ctrl.gram ∧ SameOutside [] s.ctrl.regs t.ctrl.regs)

/-- `RSTP` (43_system.md): the pulse with its three minimum waits; chip-select and the bus configuration stay. The
controller's state afterwards is open (log entry 10). -/
def Obligations.RstpPulsesResetLine : Prop :=
  ∀ s : State, NormalOperation s → ∃ t, exec .rstp s = .next t ∧
    t.trace = s.trace ++ [.rst .high, .wait 10, .rst .low, .wait 10, .rst .high, .wait 50] ∧
    t.rstN = .high ∧ t.csN = s.csN ∧ t.seq = [] ∧ t.fault = 0 ∧
    t.completions = s.completions ++ [⟨0, none⟩] ∧ t.env.allOk = true ∧ SpeedSame s t ∧ HostSame s t

/-- `PACK` (42_pixel_pack.md): the host is handed one packed pixel for each input pixel, in order; nothing else
changes, and no answer of the environment is needed. -/
def Obligations.PackReturnsPackedBuffer : Prop :=
  ∀ (w h : U16) (inbuf : List Rgb) (s : State), s.fault = 0 → s.seq = [] →
    inbuf.length = w.toNat * h.toNat →
    ∃ outbuf, exec (.pack w h inbuf) s =
        .next { s with completions := s.completions ++ [⟨0, some outbuf⟩] } ∧
      outbuf.length = w.toNat * h.toNat ∧
      ∀ (i : Nat) (x : Rgb), inbuf[i]? = some x →
        outbuf[i]? = some (x.extractLsb' 19 5 ++ x.extractLsb' 10 6 ++ x.extractLsb' 3 5 : BitVec (5 + 6 + 5))

/-- `SETSPD` (43_system.md): `SPEED_HZ` takes the value; `SPEED_ACTIVE`, the lines and the trace stay. -/
def Obligations.SetspdWritesSpeedHz : Prop :=
  ∀ (hz : U32) (s : State), s.fault = 0 → s.seq = [] →
    exec (.setspd hz) s = .next { s with speedHz := hz, completions := s.completions ++ [⟨0, none⟩] }

/-! ### The wire frames at the controller -/

/-- 20_memory.md, R34: a complete bracketed frame [0x70, h, l] selects the register {h, l}, for every h and l. That `WPTR`
stays for every index but 0x0022, and is left open for that one, is the model's choice (log entry 12); so is that the level
of the reset line, and an open bracket of the block, do not matter (log entries 31, 33). -/
def Obligations.IndexFrameSelectsRegister : Prop :=
  (∀ (h l : Byte) (s : State), ∃ t, runPacket (.frame [0x70, h, l]) s = .next t ∧ t.ctrl.sel = (h ++ l : BitVec (8 + 8)) ∧
      BlockSame s t) ∧
    (∀ (a : U16) (s : State), ∃ t, exec (.idxframe a) s = .next t ∧ t.ctrl.sel = a ∧ BlockSame s t ∧
      t.ctrl.regs = s.ctrl.regs ∧ t.ctrl.gram = s.ctrl.gram ∧ (a ≠ 0x0022 → t.ctrl.wptr = s.ctrl.wptr)) ∧
    (∀ s : State, ∃ t, exec .gramsel s = .next t ∧ t.ctrl.sel = 0x0022 ∧ BlockSame s t ∧
      t.ctrl.regs = s.ctrl.regs ∧ t.ctrl.gram = s.ctrl.gram)

/-- 20_memory.md, R35: a three-byte data frame writes the selected register, and the pair of frames of one `WRREG` has the net effect
`REGS[addr] <- value`. R35 asks for nothing before the frame but `SEL`; that it is read so for a second data frame in a row,
with the reset line active, and while a bracket of the block is open, is the model's choice (log entries 30, 31, 33). -/
def Obligations.DataFrameWritesSelectedRegister : Prop :=
  (∀ (h l : Byte) (s : State), s.ctrl.sel ≠ 0x0022 →
      ∃ t, runPacket (.frame [0x72, h, l]) s = .next t ∧
        Memory.read t.ctrl.regs s.ctrl.sel.toNat = (h ++ l : BitVec (8 + 8))) ∧
    (∀ (v : U16) (s : State), s.ctrl.sel ≠ 0x0022 → ∃ t, exec (.datframe v) s = .next t ∧
      Memory.read t.ctrl.regs s.ctrl.sel.toNat = v ∧
      SameOutside [s.ctrl.sel.toNat] s.ctrl.regs t.ctrl.regs ∧ t.ctrl.gram = s.ctrl.gram ∧
      t.ctrl.sel = s.ctrl.sel ∧ BlockSame s t) ∧
    (∀ (addr value : U16) (s : State), NormalOperation s → addr ≠ 0x0022 →
      ∃ t, exec (.wrreg addr value) s = .next t ∧ Memory.read t.ctrl.regs addr.toNat = value)

/-- 20_memory.md, R36 for one pixel: with index 0x0022 selected a three-byte data frame is one pixel at `WPTR`. That
this is so for a second data frame in a row, with the reset line active, and while a bracket of the block is open, is the
model's choice (log entries 30, 31, 33). -/
def Obligations.DataFrameWritesOnePixel : Prop :=
  ∀ (v : U16) (s : State), s.ctrl.sel = 0x0022 → ∃ t, exec (.datframe v) s = .next t ∧
    Memory.read t.ctrl.gram s.ctrl.wptr = v ∧ SameOutside [s.ctrl.wptr] s.ctrl.gram t.ctrl.gram ∧
    t.ctrl.regs = s.ctrl.regs ∧ t.ctrl.sel = s.ctrl.sel ∧ BlockSame s t

/-- A stream frame at the controller, for every number of pixels: with index 0x0022 selected the pixels are written in
order where `WPTR` passes (20_memory.md, R36); one pixel with another index selected is a register write (R35). The model's
choice: in the other cases the frame is taken and the downstream view is open (log entry 13), a second data frame in a row
is taken as the first (log entry 30), and neither the reset line nor an open bracket of the block matters (log entries
31, 33). -/
def Obligations.StreamFrameWritesPixels : Prop :=
  ∀ (ps : List Pixel) (s : State), ∃ t, exec (.pixframe ps) s = .next t ∧ BlockSame s t ∧
    (s.ctrl.sel = 0x0022 → ps ≠ [] →
      let targets := pixelTargets s.ctrl.regs ps.length s.free s.ctrl.wptr
      t.ctrl.gram = Memory.writeAll s.ctrl.gram (targets.zip ps) ∧
        SameOutside targets s.ctrl.gram t.ctrl.gram ∧ t.ctrl.regs = s.ctrl.regs ∧ t.ctrl.sel = 0x0022) ∧
    (∀ v, s.ctrl.sel ≠ 0x0022 → ps = [v] → Memory.read t.ctrl.regs s.ctrl.sel.toNat = v ∧
      SameOutside [s.ctrl.sel.toNat] s.ctrl.regs t.ctrl.regs ∧ t.ctrl.gram = s.ctrl.gram ∧
      t.ctrl.sel = s.ctrl.sel)

/-- 30_encoding.md, R54: a stream frame of one pixel has the bytes of a data frame and does the same at the
controller; so has the index frame of 0x0022 those of the GRAM-select frame. Values the spec leaves open are compared too, by
the counter of free values (log entry 34). -/
def Obligations.OnePixelStreamIsDataFrame : Prop :=
  (∀ (p : Pixel) (s : State), encode (.pixframe [p]) = encode (.datframe p) ∧
      exec (.pixframe [p]) s = exec (.datframe p) s) ∧
    (∀ s : State, encode (.idxframe 0x0022) = encode .gramsel ∧
      exec (.idxframe 0x0022) s = exec .gramsel s)

/-! ### Encoding -/

/-- 30_encoding.md, R59: a command is well formed when its opcode is one of 0x01 to 0x07, every field marked "must be 0" is 0, and the
payload has its length (two bytes an element of `STRM`, three of `PACK`: log entry 2); then, and only then, the
decoder gives an instruction. -/
def Obligations.WellFormedCommandsDecode : Prop :=
  ∀ (w : BitVec 40) (payload : List Byte),
    let op := w.extractLsb' 32 8
    let a := w.extractLsb' 16 16
    let b := w.extractLsb' 0 16
    (∃ i, decode (.command (wordBytes w ++ payload)) = .ok i) ↔
      (1 ≤ op.toNat ∧ op.toNat ≤ 7) ∧
      ((op = 1 ∨ op = 2 ∨ op = 5) → b = 0) ∧ (op = 5 → a = 0) ∧
      (op = 4 → payload.length = 2 * (a.toNat * b.toNat)) ∧
      (op = 6 → payload.length = 3 * (a.toNat * b.toNat)) ∧
      (op ≠ 4 → op ≠ 6 → payload = [])

/-- 30_encoding.md, R56 (decisions D3, D5): a word is the command when `w & mask = match`, with its operands in `a` and `b`.
The order of the word's bytes, and the bytes of a payload, are the model's choice (log entry 2). -/
def Obligations.OpcodeMapByMatchAndMask : Prop :=
  ∀ (w : BitVec 40) (payload : List Byte) (addr value width height : U16) (hz : U32) (buf : List Pixel)
    (inbuf : List Rgb),
    let d := decode (.command (wordBytes w ++ payload))
    let a := w.extractLsb' 16 16
    let b := w.extractLsb' 0 16
    (d = .ok (.wridx addr) ↔ w &&& 0xFF0000FFFF = 0x0100000000 ∧ addr = a ∧ payload = []) ∧
    (d = .ok (.wrdat value) ↔ w &&& 0xFF0000FFFF = 0x0200000000 ∧ value = a ∧ payload = []) ∧
    (d = .ok (.wrreg addr value) ↔
      w &&& 0xFF00000000 = 0x0300000000 ∧ addr = a ∧ value = b ∧ payload = []) ∧
    (d = .ok (.strm width height buf) ↔ w &&& 0xFF00000000 = 0x0400000000 ∧ width = a ∧ height = b ∧
      payload = pixelBytes buf ∧ buf.length = a.toNat * b.toNat) ∧
    (d = .ok .rstp ↔ w &&& 0xFFFFFFFFFF = 0x0500000000 ∧ payload = []) ∧
    (d = .ok (.pack width height inbuf) ↔ w &&& 0xFF00000000 = 0x0600000000 ∧ width = a ∧ height = b ∧
      payload = rgbBytes inbuf ∧ inbuf.length = a.toNat * b.toNat) ∧
    (d = .ok (.setspd hz) ↔ w &&& 0xFF00000000 = 0x0700000000 ∧ hz = w.extractLsb' 0 32 ∧ payload = [])

/-- Decoding the encoding of a well-formed instruction gives it back, for every row of the opcode table. -/
def Obligations.DecodeOfEncodeIsInstruction : Prop :=
  ∀ i : Instr, i.wf = true → decode (encode i) = .ok i

/-- Each word has one meaning: what decodes to an instruction is that instruction's encoding, and the instruction is
well formed. -/
def Obligations.EncodeOfDecodeIsWord : Prop :=
  ∀ (p : Packet) (i : Instr), decode p = .ok i → encode i = p ∧ i.wf = true

/-- Words written out from 30_encoding.md R51, R53, R55 and R56 (vectors V1, V2, V3, V9, V28, V30, V31). The order of a
command's bytes and of the bytes of its payload is the model's choice (log entry 2). -/
def Obligations.KnownWordsDecode : Prop :=
  decode (.command [0x01, 0x00, 0x03, 0x00, 0x00]) = .ok (.wridx 0x0003) ∧
    decode (.command [0x02, 0x10, 0x30, 0x00, 0x00]) = .ok (.wrdat 0x1030) ∧
    decode (.command [0x03, 0x00, 0x50, 0x00, 0x14]) = .ok (.wrreg 0x0050 0x0014) ∧
    decode (.command [0x04, 0x00, 0x02, 0x00, 0x01, 0xF8, 0x00, 0x00, 0x1F]) =
      .ok (.strm 2 1 [0xF800, 0x001F]) ∧
    decode (.command [0x05, 0x00, 0x00, 0x00, 0x00]) = .ok .rstp ∧
    decode (.command [0x06, 0x00, 0x02, 0x00, 0x01, 0xFF, 0x00, 0x00, 0x00, 0x00, 0xFF]) =
      .ok (.pack 2 1 [0xFF0000, 0x0000FF]) ∧
    decode (.command [0x07, 0x00, 0x7A, 0x12, 0x00]) = .ok (.setspd 8000000) ∧
    decode (.frame [0x70, 0x00, 0x22]) = .ok .gramsel ∧
    decode (.frame [0x70, 0x12, 0x34]) = .ok (.idxframe 0x1234) ∧
    decode (.frame [0x72, 0xAB, 0xCD]) = .ok (.datframe 0xABCD) ∧
    decode (.frame [0x72, 0xF8, 0x00, 0x00, 0x1F]) = .ok (.pixframe [0xF800, 0x001F])

/-- R81: the byte list of a packed buffer, two bytes a pixel, high byte first, in buffer order; of what `PACK` makes of a
pixel these are `byte0` and `byte1`. -/
def Obligations.PixelBytesHighByteFirst : Prop :=
  (∀ buf : List Pixel, (pixelBytes buf).length = 2 * buf.length ∧
    ∀ (i : Nat) (p : Pixel), buf[i]? = some p →
      (pixelBytes buf)[2 * i]? = some (p.extractLsb' 8 8) ∧
        (pixelBytes buf)[2 * i + 1]? = some (p.extractLsb' 0 8)) ∧
    ∀ (inbuf : List Rgb) (i : Nat) (x : Rgb), inbuf[i]? = some x →
      let bytes := pack565 (x.extractLsb' 16 8) (x.extractLsb' 8 8) (x.extractLsb' 0 8)
      (pixelBytes (inbuf.map packPixel))[2 * i]? = some bytes.1 ∧
        (pixelBytes (inbuf.map packPixel))[2 * i + 1]? = some bytes.2

/-! ### The step -/

/-- 10_state.md R19 and 30_encoding.md R63, for a command: with nothing in progress, a step takes what is presented and runs the
instruction it decodes to. The model's choice: that a command is presented as bytes, and which (log entry 2), that what is
presented stands in `inbox` (log entry 6), and that a wire frame is presented and taken in the same way (log entry 15). -/
def Obligations.StepRunsDecodedInstruction : Prop :=
  ∀ (p : Packet) (rest : List Stimulus) (i : Instr) (s : State), s.seq = [] → s.hostSeq = [] →
    s.inbox = .packet p :: rest → decode p = .ok i → step s = exec i { s with inbox := rest }

/-- 10_state.md, R24: a micro-operation that does not raise is removed from `SEQ`, and the command completes with code 0
when none is left. -/
def Obligations.StepTakesHeadOfSeq : Prop :=
  ∀ (u : MicroOp) (rest : List MicroOp) (s : State), s.seq = u :: rest → s.env.allOk = true →
    ∃ t, step s = .next t ∧ t.seq = rest ∧ t.fault = s.fault ∧
      t.completions = (if rest = [] then s.completions ++ [⟨0, none⟩] else s.completions)

/-- 10_state.md, R24: with `SEQ` empty and nothing presented the state does not change; the block has no step then, and that the
machine's step answers the same state is the model's reading (log entry 5). -/
def Obligations.IdleBlockStays : Prop :=
  ∀ s : State, s.seq = [] → s.hostSeq = [] → s.inbox = [] → step s = .next s

/-- 60_exceptions.md, R131: where the environment never answers, the block stays inside that micro-operation: every
step leaves the state as it is. -/
def Obligations.UnansweredActionHangs : Prop :=
  ∀ (u : MicroOp) (rest : List MicroOp) (s : State), s.seq = u :: rest →
    ((∃ l, u = .driveCs l ∨ u = .driveRst l) ∧ (askGpio s.env).1 = .never ∨
      (∃ f, u = .txFrame f) ∧ (askXfer s.env).1 = .never) →
    ∀ n, Host.Core.run Sys2Proof.core n s = .next s

/-- 10_state.md, R19: while `SEQ` is not empty nothing is taken from the host, and a command given is not accepted. -/
def Obligations.BusyBlockAcceptsNothing : Prop :=
  ∀ s : State, s.seq ≠ [] →
    (∃ t, step s = .next t ∧ t.inbox = s.inbox ∧ t.hostSeq = s.hostSeq) ∧
      ∀ i : Instr, i.isCommand = true → exec i s = .next s

/-- 10_state.md, R14: a command as one big step, and the same command accepted and run one micro-operation a step, give
the same state, whatever the environment answers. Values the spec leaves open are compared too, by the counter of free values
(log entry 34). -/
def Obligations.BigStepEqualsMicroSteps : Prop :=
  (∀ s : State, microSteps s.seq.length s = performAll s.seq s) ∧
    ∀ (i : Instr) (s : State), i.isCommand = true → s.seq = [] →
      exec i s = .next (microSteps (accepted i s).seq.length (accepted i s))

/-! ### The micro-operations -/

/-- R20: `drive_cs`. -/
def Obligations.DriveCsDrivesLine : Prop :=
  ∀ (l : Level) (rest : List MicroOp) (s : State), s.seq = .driveCs l :: rest →
    ((askGpio s.env).1 = .ok → ∃ t, step s = .next t ∧ t.csN = l ∧ t.trace = s.trace ++ [.cs l] ∧
      t.seq = rest ∧ t.rstN = s.rstN ∧ t.fault = s.fault ∧ SpeedSame s t ∧ HostSame s t) ∧
    ((askGpio s.env).1 = .fail → ∃ t, step s = .next t ∧ t.csN = s.csN ∧ t.trace = s.trace ++ [.fail 3] ∧
      t.seq = [] ∧ t.rstN = s.rstN ∧ (s.fault = 0 → t.fault = 3) ∧ (s.fault ≠ 0 → t.fault = s.fault) ∧
      t.completions = s.completions ++ [⟨3, none⟩] ∧ SpeedSame s t ∧ HostSame s t)

/-- R21: `drive_rst`. -/
def Obligations.DriveRstDrivesLine : Prop :=
  ∀ (l : Level) (rest : List MicroOp) (s : State), s.seq = .driveRst l :: rest →
    ((askGpio s.env).1 = .ok → ∃ t, step s = .next t ∧ t.rstN = l ∧ t.trace = s.trace ++ [.rst l] ∧
      t.seq = rest ∧ t.csN = s.csN ∧ t.fault = s.fault ∧ SpeedSame s t ∧ HostSame s t) ∧
    ((askGpio s.env).1 = .fail → ∃ t, step s = .next t ∧ t.rstN = s.rstN ∧ t.trace = s.trace ++ [.fail 3] ∧
      t.seq = [] ∧ t.csN = s.csN ∧ (s.fault = 0 → t.fault = 3) ∧ (s.fault ≠ 0 → t.fault = s.fault) ∧
      t.completions = s.completions ++ [⟨3, none⟩] ∧ SpeedSame s t ∧ HostSame s t)

/-- R22: `tx_frame`: all bytes in list order, or `BusOpenFailure`, or `k` bytes and `BusTransferFailure`. -/
def Obligations.TxFrameSendsBytes : Prop :=
  ∀ (bytes : List Byte) (rest : List MicroOp) (s : State), s.seq = .txFrame bytes :: rest →
    ((askXfer s.env).1 = .ok → ∃ t, step s = .next t ∧ t.trace = s.trace ++ bytes.map Event.tx ∧
      t.seq = rest ∧ t.csN = s.csN ∧ t.rstN = s.rstN ∧ t.fault = s.fault ∧ SpeedSame s t ∧ HostSame s t) ∧
    ((askXfer s.env).1 = .openFail → ∃ t, step s = .next t ∧ t.trace = s.trace ++ [.fail 1] ∧ t.seq = [] ∧
      t.csN = s.csN ∧ t.rstN = s.rstN ∧ (s.fault = 0 → t.fault = 1) ∧
      t.completions = s.completions ++ [⟨1, none⟩] ∧ SpeedSame s t ∧ HostSame s t) ∧
    (∀ k, k ≤ bytes.length → (askXfer s.env).1 = .xferFail k → ∃ t, step s = .next t ∧
      t.trace = s.trace ++ (bytes.take k).map Event.tx ++ [.fail 2] ∧ t.seq = [] ∧ t.csN = s.csN ∧
      t.rstN = s.rstN ∧ (s.fault = 0 → t.fault = 2) ∧
      t.completions = s.completions ++ [⟨2, none⟩] ∧ SpeedSame s t ∧ HostSame s t)

/-- R23: `wait(t)` leaves its event and cannot fail. -/
def Obligations.WaitLeavesItsEvent : Prop :=
  ∀ (ms : Nat) (rest : List MicroOp) (s : State), s.seq = .wait ms :: rest →
    ∃ t, step s = .next t ∧ t.trace = s.trace ++ [.wait ms] ∧ t.seq = rest ∧ t.csN = s.csN ∧ t.rstN = s.rstN ∧
      t.fault = s.fault ∧ t.ctrl = s.ctrl ∧ t.env = s.env ∧ SpeedSame s t ∧ HostSame s t

/-! ### Failures -/

/-- 60_exceptions.md, R134: what a failure records, and that it does nothing else. That the lines stay as they are is the
spec's own reading of "immediately" (92_eei_decisions.md D11). -/
def Obligations.RaiseRecordsFirstFailure : Prop :=
  ∀ (f : Failure) (s : State),
    (raise f s).fault = (if s.fault = 0 then f.code else s.fault) ∧
      (raise f s).trace = s.trace ++ [.fail f.code] ∧ (raise f s).seq = [] ∧
      (raise f s).completions = s.completions ++ [⟨f.code, none⟩] ∧
      (raise f s).csN = s.csN ∧ (raise f s).rstN = s.rstN ∧ SpeedSame s (raise f s) ∧
      HostSame s (raise f s) ∧ (raise f s).env = s.env ∧ (raise f s).ctrl = s.ctrl

/-- 60_exceptions.md, R135: while `FAULT` is not 0 every command completes at once with code 5 and changes nothing else, and no step but
a block reset changes `FAULT`, the trace, the lines or the speed registers. -/
def Obligations.FaultedBlockRefusesEverything : Prop :=
  (∀ (i : Instr) (s : State), i.isCommand = true → s.fault ≠ 0 → s.seq = [] →
      exec i s = .next { s with completions := s.completions ++ [⟨5, none⟩] }) ∧
    ∀ s t : State, s.fault ≠ 0 → s.seq = [] → ¬ ResetNext s →
      step s = .next t → t.fault = s.fault ∧ t.trace = s.trace ∧ t.csN = s.csN ∧ t.rstN = s.rstN ∧
        t.seq = [] ∧ SpeedSame s t

/-- 60_exceptions.md, R133: `IllegalCommand` is raised at acceptance, before any micro-operation: for bytes that are no
command, and for `STRM` and `PACK` with a payload of the wrong length. That fewer than five bytes, and a payload that is no
whole number of elements, are commands that are not well formed is the model's choice (log entries 2, 26). -/
def Obligations.IllegalCommandRaisedAtAcceptance : Prop :=
  let illegal := fun (s t : State) => t.trace = s.trace ++ [.fail 4] ∧ t.fault = 4 ∧ t.seq = [] ∧
    t.completions = s.completions ++ [⟨4, none⟩] ∧ t.csN = s.csN ∧ t.rstN = s.rstN ∧ SpeedSame s t ∧
    t.ctrl = s.ctrl ∧ t.env = s.env
  (∀ (bytes : List Byte) (e : DecodeError) (rest : List Stimulus) (s : State), Idle s → s.fault = 0 →
      s.inbox = .packet (.command bytes) :: rest → decode (.command bytes) = .error e →
      ∃ t, step s = .next t ∧ illegal s t ∧ t.inbox = rest) ∧
    (∀ (w h : U16) (buf : List Pixel) (s : State), s.seq = [] → s.fault = 0 →
      buf.length ≠ w.toNat * h.toNat → ∃ t, exec (.strm w h buf) s = .next t ∧ illegal s t) ∧
    (∀ (w h : U16) (inbuf : List Rgb) (s : State), s.seq = [] → s.fault = 0 →
      inbuf.length ≠ w.toNat * h.toNat → ∃ t, exec (.pack w h inbuf) s = .next t ∧ illegal s t)

/-- 60_exceptions.md, R137: at acceptance the refusal (code 5) is tested before well-formedness (code 4). That fewer than
five bytes, and a payload that is no whole number of elements, are such commands is the model's choice (log entries 2,
26). -/
def Obligations.RefusalTestedBeforeIllegality : Prop :=
  ∀ (bytes : List Byte) (e : DecodeError) (rest : List Stimulus) (s : State), Idle s → s.fault ≠ 0 →
    s.inbox = .packet (.command bytes) :: rest → decode (.command bytes) = .error e →
    step s = .next { s with inbox := rest, completions := s.completions ++ [⟨5, none⟩] }

/-- 60_exceptions.md, table of R132, `WRIDX` and `WRDAT`: where each failure strikes, and what it leaves. -/
def Obligations.ThreeByteCommandFailures : Prop :=
  ∀ (v : U16) (data : Bool) (s : State), s.fault = 0 → s.seq = [] →
    let i : Instr := if data then .wrdat v else .wridx v
    let frame : List Byte := [if data then 0x72 else 0x70, v.extractLsb' 8 8, v.extractLsb' 0 8]
    let a1 := askGpio s.env
    let a2 := askXfer a1.2
    let a3 := askGpio a2.2
    let fails := fun (cs : Level) (events : List Event) (code : BitVec 3) => ∃ t, exec i s = .next t ∧
      t.csN = cs ∧ t.trace = s.trace ++ events ++ [.fail code] ∧ t.fault = code ∧ t.seq = [] ∧
      t.completions = s.completions ++ [⟨code, none⟩] ∧ t.rstN = s.rstN ∧ SpeedSame s t ∧ HostSame s t
    (a1.1 = .fail → fails s.csN [] 3) ∧
      (a1.1 = .ok → a2.1 = .openFail → fails .low [.cs .low] 1) ∧
      (∀ k, k ≤ 3 → a1.1 = .ok → a2.1 = .xferFail k →
        fails .low (.cs .low :: (frame.take k).map Event.tx) 2) ∧
      (a1.1 = .ok → a2.1 = .ok → a3.1 = .fail → fails .low (.cs .low :: frame.map Event.tx) 3)

/-- 60_exceptions.md, table of R132, `STRM`: where each failure strikes, in the GRAM-select frame and in the stream frame,
which a transfer failure may cut anywhere, and what it leaves. -/
def Obligations.StreamFrameCutAnywhere : Prop :=
  ∀ (w h : U16) (buf : List Pixel) (s : State), s.fault = 0 → s.seq = [] → buf.length = w.toNat * h.toNat →
    let select : List Byte := [0x70, 0x00, 0x22]
    let stream : List Byte := 0x72 :: pixelBytes buf
    let a1 := askGpio s.env
    let a2 := askXfer a1.2
    let a3 := askGpio a2.2
    let a4 := askGpio a3.2
    let a5 := askXfer a4.2
    let a6 := askGpio a5.2
    let fails := fun (cs : Level) (events : List Event) (code : BitVec 3) => ∃ t, exec (.strm w h buf) s = .next t ∧
      t.csN = cs ∧ t.trace = s.trace ++ events ++ [.fail code] ∧ t.fault = code ∧ t.seq = [] ∧
      t.completions = s.completions ++ [⟨code, none⟩] ∧ t.rstN = s.rstN ∧ SpeedSame s t ∧ HostSame s t
    (a1.1 = .fail → fails s.csN [] 3) ∧
      (a1.1 = .ok → (a2.1 = .openFail → fails .low [.cs .low] 1) ∧
        (∀ k, k ≤ 3 → a2.1 = .xferFail k → fails .low (.cs .low :: (select.take k).map Event.tx) 2) ∧
        (a2.1 = .ok → (a3.1 = .fail → fails .low (.cs .low :: select.map Event.tx) 3) ∧
          (a3.1 = .ok → (a4.1 = .fail → fails .high (bracketEvents select) 3) ∧
            (a4.1 = .ok → (a5.1 = .openFail → fails .low (bracketEvents select ++ [.cs .low]) 1) ∧
              (∀ k, k ≤ 1 + 2 * (w.toNat * h.toNat) → a5.1 = .xferFail k →
                fails .low (bracketEvents select ++ .cs .low :: (stream.take k).map Event.tx) 2) ∧
              (a5.1 = .ok → a6.1 = .fail →
                fails .low (bracketEvents select ++ .cs .low :: stream.map Event.tx) 3)))))

/-- 60_exceptions.md, table of R132, `RSTP`: a failure at each drive of the reset line. -/
def Obligations.RstpFailures : Prop :=
  ∀ s : State, s.fault = 0 → s.seq = [] →
    let a1 := askGpio s.env
    let a2 := askGpio a1.2
    let a3 := askGpio a2.2
    let fails := fun (rst : Level) (events : List Event) => ∃ t, exec .rstp s = .next t ∧
      t.rstN = rst ∧ t.trace = s.trace ++ events ++ [.fail 3] ∧ t.fault = 3 ∧ t.seq = [] ∧
      t.completions = s.completions ++ [⟨3, none⟩] ∧ t.csN = s.csN ∧ SpeedSame s t ∧ HostSame s t
    (a1.1 = .fail → fails s.rstN []) ∧
      (a1.1 = .ok → a2.1 = .fail → fails .high [.rst .high, .wait 10]) ∧
      (a1.1 = .ok → a2.1 = .ok → a3.1 = .fail →
        fails .low [.rst .high, .wait 10, .rst .low, .wait 10])

/-- 40_register_write.md, R72: `WRREG` and the commands `WRIDX`, `WRDAT` given one after the other leave the same trace,
lines and failure, whatever the environment answers, as long as it answers `WRIDX`. The spec leaves the controller open after
a failure, and `WPTR` after a register write (20_memory.md R37, 93_implementation_defined.md U2): that the two runs leave the
same controller there too is no rule of the spec, but holds because both take the same free values from the counter (log
entries 9, 12, 34). -/
def Obligations.WrregIsWridxThenWrdat : Prop :=
  ∀ (addr value : U16) (s t1 : State), s.seq = [] → exec (.wridx addr) s = .next t1 → t1.seq = [] →
    ∃ t2 t, exec (.wrdat value) t1 = .next t2 ∧ exec (.wrreg addr value) s = .next t ∧
      t.trace = t2.trace ∧ t.csN = t2.csN ∧ t.rstN = t2.rstN ∧ t.fault = t2.fault ∧ t.ctrl = t2.ctrl ∧
      t.env = t2.env ∧ t.seq = t2.seq

/-! ### Whole-machine rules -/

/-- What an instruction never changes, on any answers: `SPEED_ACTIVE`, `SPI_MODE` and the host's state; `SPEED_HZ`
but by `SETSPD`, the reset line but by `RSTP`, and a wire frame nothing of the block (the model's choice, log entry 15). -/
def Obligations.InstructionsKeepWhatIsNotTheirs : Prop :=
  ∀ (i : Instr) (s t : State), exec i s = .next t →
    t.speedActive = s.speedActive ∧ t.spiMode = s.spiMode ∧ HostSame s t ∧
      ((∀ hz, i ≠ .setspd hz) → t.speedHz = s.speedHz) ∧ (i ≠ .rstp → t.rstN = s.rstN) ∧
      (i.isCommand = false → BlockSame s t)

/-- Every instruction gives a next state in every state: no meaning faults and none refuses (log entry 23). -/
def Obligations.EveryInstructionAnswersNext : Prop :=
  ∀ (i : Instr) (s : State), ∃ t, exec i s = .next t ∧ s.completions <+: t.completions

/-- 10_state.md, R16: nothing removes or reorders events: a step that is not a block reset only appends to the trace. -/
def Obligations.TraceOnlyGrows : Prop :=
  ∀ s t : State, step s = .next t → ¬ ResetNext s →
    s.trace <+: t.trace

/-- 10_state.md, R17: `SPEED_ACTIVE` is loaded by block reset only. -/
def Obligations.SpeedActiveOnlyByBlockReset : Prop :=
  ∀ s t : State, step s = .next t → ¬ ResetNext s →
    t.speedActive = s.speedActive

/-- 10_state.md, R25 and the rest of `BlockInv`: every step keeps the invariant, from every state that has it. -/
def Obligations.StepKeepsInvariant : Prop :=
  ∀ s t : State, BlockInv s → step s = .next t → BlockInv t

/-- `State.reset` has the invariant. -/
def Obligations.ResetHasInvariant : Prop := BlockInv State.reset

/-- 10_state.md R25 item 1, R27, 43_system.md R100 and the table of 60_exceptions.md R132, from the invariant: between
commands chip-select is inactive, and so is the reset line. -/
def Obligations.ChipSelectInactiveBetweenCommands : Prop :=
  ∀ s : State, BlockInv s → s.fault = 0 → s.seq = [] → s.csN = .high ∧ s.rstN = .high

/-- 40_register_write.md R73 and 41_pixel_stream.md R83: the number of events of each successful command. -/
def Obligations.EventCounts : Prop :=
  ∀ (i : Instr) (s t : State), NormalOperation s → i.wf = true → i.isCommand = true → exec i s = .next t →
    t.trace.length = s.trace.length +
      match i with
      | .wridx _ | .wrdat _ => 5
      | .wrreg _ _ => 10
      | .strm w h _ => 8 + 2 * (w.toNat * h.toNat)
      | .rstp => 6
      | _ => 0

/-! ### The packer -/

/-- R94: the packed value's fields recover `R >> 3`, `G >> 2` and `B >> 3` exactly, also through the two bytes. -/
def Obligations.PackedFieldsRecoverChannels : Prop :=
  ∀ r g b : BitVec 8,
    let p := packPixel (r ++ g ++ b : BitVec (8 + 8 + 8))
    let bytes := pack565 r g b
    (p.extractLsb' 11 5).zeroExtend 8 = r >>> 3 ∧ (p.extractLsb' 5 6).zeroExtend 8 = g >>> 2 ∧
      (p.extractLsb' 0 5).zeroExtend 8 = b >>> 3 ∧
      ((bytes.1 &&& 0x07) <<< 3) ||| (bytes.2 >>> 5) = g >>> 2 ∧ p = (bytes.1 ++ bytes.2 : BitVec (8 + 8))

/-- 42_pixel_pack.md, R90 and R91 by bits: `byte0 = {R[7:3], G[7:5]}`, `byte1 = {G[4:2], B[7:3]}`,
`p = (r5 << 11) | (g6 << 5) | b5`. -/
def Obligations.PackedBitsOfChannels : Prop :=
  ∀ r g b : BitVec 8,
    (pack565 r g b).1 = (r.extractLsb' 3 5 ++ g.extractLsb' 5 3 : BitVec (5 + 3)) ∧
      (pack565 r g b).2 = (g.extractLsb' 2 3 ++ b.extractLsb' 3 5 : BitVec (3 + 5)) ∧
      packPixel (r ++ g ++ b : BitVec (8 + 8 + 8)) =
        ((r >>> 3).zeroExtend 16 <<< 11) ||| ((g >>> 2).zeroExtend 16 <<< 5) ||| (b >>> 3).zeroExtend 16

/-- 42_pixel_pack.md, R92: two pixels are packed alike just when they agree in R[7:3], G[7:2] and B[7:3]. -/
def Obligations.PackedEqualJustWhenKeptBitsAgree : Prop :=
  ∀ x y : BitVec 24, packPixel x = packPixel y ↔
    x.extractLsb' 19 5 = y.extractLsb' 19 5 ∧ x.extractLsb' 10 6 = y.extractLsb' 10 6 ∧
      x.extractLsb' 3 5 = y.extractLsb' 3 5

/-! ### The host -/

/-- 44_host_sequences.md, R119: `clamp` on mathematical integers. -/
def Obligations.ClampReturnsNearestBound : Prop :=
  ∀ v lo hi : Int, lo ≤ hi →
    (v < lo → clamp v lo hi = lo) ∧ (hi < v → clamp v lo hi = hi) ∧ (lo ≤ v → v ≤ hi → clamp v lo hi = v)

/-- 44_host_sequences.md, R114: every coordinate of a draw's window, for every place of the draw: where a start or an end lies
off the panel it is the nearest edge, otherwise it is itself, each by itself. So every coordinate lies on the panel, and the
end is not before the start for a buffer that is not empty. -/
def Obligations.WindowLiesOnPanel : Prop :=
  ∀ x y w h : Int,
    let win := drawWindow x y w h
    let nearest := fun (v got last : Int) =>
      (v < 0 → got = 0) ∧ (last < v → got = last) ∧ (0 ≤ v → v ≤ last → got = v)
    nearest x win.x0 239 ∧ nearest (x + w - 1) win.x1 239 ∧ nearest y win.y0 319 ∧ nearest (y + h - 1) win.y1 319 ∧
      (0 ≤ win.x0 ∧ win.x0 ≤ 239 ∧ 0 ≤ win.x1 ∧ win.x1 ≤ 239) ∧
      (0 ≤ win.y0 ∧ win.y0 ≤ 319 ∧ 0 ≤ win.y1 ∧ win.y1 ≤ 319) ∧
      (1 ≤ w → win.x0 ≤ win.x1) ∧ (1 ≤ h → win.y0 ≤ win.y1) ∧
      (0 ≤ x → 1 ≤ w → x + w ≤ 240 → 0 ≤ y → 1 ≤ h → y + h ≤ 320 →
        win = { x0 := x, y0 := y, x1 := x + w - 1, y1 := y + h - 1 })

/-- 44_host_sequences.md, R115: `SETWIN` writes horizontal start, vertical start, horizontal end, vertical end, in that
order, and returns. That it does so whatever the state of the driver is the model's choice (log entry 20): R118 has the host
guard the draws only, while 93_implementation_defined.md U12 has it refuse a driver whose construction failed. -/
def Obligations.SetWinWritesStartBeforeEnd : Prop :=
  ∀ (x0 y0 x1 y1 : U16) (rest : List Stimulus) (s : State), NormalOperation s → s.hostSeq = [] →
    s.inbox = .host (.setWin x0 y0 x1 y1) :: rest →
    ∃ n t, Host.Core.run Sys2Proof.core n s = .next t ∧
      t.trace = s.trace ++ wrregEvents Config.hostParams.regHStart x0 ++
        wrregEvents Config.hostParams.regVStart y0 ++ wrregEvents Config.hostParams.regHEnd x1 ++
        wrregEvents Config.hostParams.regVEnd y1 ∧
      t.hostLog = s.hostLog ++ [.returned .done] ∧ t.fault = 0 ∧ t.seq = [] ∧ t.hostSeq = [] ∧
      t.inbox = rest ∧ t.csN = .high ∧ t.drv = s.drv ∧ SpeedSame s t

/-- 44_host_sequences.md, R116: a draw on a driver that is `Ready` packs the buffer, writes the clamped window in four
register writes, and streams the whole packed buffer, with nothing between. -/
def Obligations.DrawRegionSetsWindowThenStreams : Prop :=
  ∀ (x y : Int) (buf : PixelBuffer) (rest : List Stimulus) (s : State), NormalOperation s → s.hostSeq = [] →
    s.drv = .ready → s.inbox = .host (.drawRegion x y buf) :: rest →
    buf.px.length = buf.w.toNat * buf.h.toNat →
    let win := drawWindow x y buf.w.toNat buf.h.toNat
    ∃ n t, Host.Core.run Sys2Proof.core n s = .next t ∧
      t.trace = s.trace ++ wrregEvents Config.hostParams.regHStart (BitVec.ofInt 16 win.x0) ++
        wrregEvents Config.hostParams.regVStart (BitVec.ofInt 16 win.y0) ++
        wrregEvents Config.hostParams.regHEnd (BitVec.ofInt 16 win.x1) ++
        wrregEvents Config.hostParams.regVEnd (BitVec.ofInt 16 win.y1) ++
        strmEvents (buf.px.map packPixel) ∧
      t.hostLog = s.hostLog ++ [.returned .done] ∧ t.fault = 0 ∧ t.seq = [] ∧ t.hostSeq = [] ∧
      t.inbox = rest ∧ t.csN = .high ∧ t.drv = .ready ∧ SpeedSame s t

/-- 44_host_sequences.md, R117: `DRAWFULL buffer` is `DRAWREGION 0, 0, buffer` for every buffer; for one of 240 x 320 the
window is the whole panel and the stream frame has 153601 bytes, which the spec derives from R114 and R80. -/
def Obligations.DrawFullIsDrawRegionAtOrigin : Prop :=
  (∀ (buf : PixelBuffer) (rest : List Stimulus) (s : State), Idle s →
    step { s with inbox := .host (.drawFull buf) :: rest } =
      step { s with inbox := .host (.drawRegion 0 0 buf) :: rest }) ∧
    drawWindow 0 0 240 320 = { x0 := 0, y0 := 0, x1 := 239, y1 := 319 } ∧
    ∀ packed : List Pixel, packed.length = 240 * 320 → (streamFrameBytes packed).length = 153601

/-- 44_host_sequences.md, R118: a draw on a driver that is not `Ready` returns `NotInitialized` and gives the block no
command. -/
def Obligations.DrawNeedsReadyDriver : Prop :=
  ∀ (op : HostOp) (buf : PixelBuffer) (x y : Int) (rest : List Stimulus) (s : State), Idle s → s.drv ≠ .ready →
    (op = .drawRegion x y buf ∨ op = .drawFull buf) → s.inbox = .host op :: rest →
    Host.Core.run Sys2Proof.core 2 s =
      .next { s with inbox := rest, hostLog := s.hostLog ++ [.returned .notInitialized] }

/-- 44_host_sequences.md, R110: the panel's constants; `GETSIZE` returns (240, 320), gives the block no command and
changes nothing. That it does so whatever the state of the driver, also after a construction that failed
(93_implementation_defined.md, U12), is the model's choice (log entry 20). -/
def Obligations.GetSizeReturnsPanel : Prop :=
  (Config.panelW = 240 ∧ Config.panelH = 320 ∧ Config.panelBpp = 16) ∧
  ∀ (rest : List Stimulus) (s : State), Idle s → s.inbox = .host .getSize :: rest →
    Host.Core.run Sys2Proof.core 2 s =
      .next { s with inbox := rest, hostLog := s.hostLog ++ [.returned (.size 240 320)] }

/-- 44_host_sequences.md, R111 to R113: a construction in which everything succeeds resets the block, pulses the reset
line, gives the writes of `INIT_SEQ` in order, keeps its delays, and leaves the driver `Ready`. That a delay leaves an
entry in the host's log is the model's choice (log entry 28). -/
def Obligations.ConstructionReachesReady : Prop :=
  ∀ (hz : U32) (rest : List Stimulus) (s : State), Idle s → s.env.allOk = true →
    s.inbox = .host (.new hz) :: rest →
    ∃ n t, Host.Core.run Sys2Proof.core n s = .next t ∧ t.drv = .ready ∧
      t.trace = rstpEvents ++ (initSeq Config.hostParams).flatMap initItemEvents ∧
      t.hostLog = s.hostLog ++ (initSeq Config.hostParams).flatMap initItemLog ++ [.returned .driver] ∧
      t.fault = 0 ∧ t.seq = [] ∧ t.hostSeq = [] ∧ t.inbox = rest ∧ t.csN = .high ∧ t.rstN = .high ∧
      t.speedHz = hz ∧ t.speedActive = hz

/-- 60_exceptions.md, R140: a block reset that fails, at the chip-select line, at the reset line or at the bus, ends the
construction with `ConstructionFailure` and its code; no command is given. That the driver is then `Failed`, and that the
host is handed the code as a completion code, are the model's choice (log entries 20, 32). -/
def Obligations.ConstructionFailsWithBlockReset : Prop :=
  ∀ (hz : U32) (rest : List Stimulus) (s : State), Idle s → s.inbox = .host (.new hz) :: rest →
    let a1 := askGpio s.env
    let a2 := askGpio a1.2
    let a3 := askOpen a2.2
    let failsWith := fun (code : BitVec 3) => ∃ t, Host.Core.run Sys2Proof.core 4 s = .next t ∧ t.drv = .failed ∧
      t.hostSeq = [] ∧ t.inbox = rest ∧ t.hostLog = s.hostLog ++ [.returned (.constructionFailure code)] ∧
      t.completions = s.completions ++ [⟨code, none⟩] ∧ t.trace = [.fail code] ∧ t.fault = code ∧ t.seq = []
    (a1.1 = .fail → failsWith 3) ∧
      (a1.1 = .ok → a2.1 = .fail → failsWith 3) ∧
      (a1.1 = .ok → a2.1 = .ok → a3.1 = .fail → failsWith 1)

/-- 44_host_sequences.md, its opening, R111 and R113: a completion code other than 0 ends a sequence at that command. In every
operation of the driver each command, and block reset, is followed by the check of its code before anything else is given;
the driver becomes `Ready`, and anything is returned, at the end only. The check goes on after code 0; after another code a
construction returns `ConstructionFailure`, with the driver `Failed` for good, and `SETWIN` and a draw return the code as
their error (60_exceptions.md, R134). Two clauses about block reset are the model's choice: that it
ends with a completion code (log entry 32), and that the check after it is that of a construction, so that a failed block
reset too leaves the driver `Failed`, which R111 and R113 say of a command of `INIT` only (log entry 20). -/
def Obligations.InitStopsAtFirstFailure : Prop :=
  (∀ (p : HostParams) (drv : DrvState) (op : HostOp) (before after : List HostStep) (x : HostStep),
    opSteps p drv op = before ++ x :: after →
    (x.isCommand = true → ∃ rest, after = .check op.onFail :: rest) ∧
    (∀ hz, x = .blockReset hz → ∃ rest, after = .setDrv .uninitialized :: .check op.onFail :: rest) ∧
    (x = .setDrv .ready → after = [.ret .driver]) ∧
    (∀ r, x = .ret r → after = [])) ∧
  ∀ (h : OnFail) (rest : List HostStep) (c : Completion) (s : State), s.seq = [] →
    s.hostSeq = .check h :: rest → s.completions.getLast? = some c →
    (c.code = 0 → step s = .next { s with hostSeq := rest }) ∧
    (c.code ≠ 0 → h = .construction → step s = .next { s with
      hostSeq := [], drv := .failed, hostLog := s.hostLog ++ [.returned (.constructionFailure c.code)] }) ∧
    (c.code ≠ 0 → h = .operation → step s = .next { s with
      hostSeq := [], hostLog := s.hostLog ++ [.returned (.error c.code)] })

/-- 44_host_sequences.md, R113 and R115: what the spec fixes of the open parameters, for all of them. `INIT_SEQ` is its six
groups of writes in order, with exactly two delays, each of at least 50 ms, inside the third, the power group; the fifth
leaves the full panel in the window registers, which are pairwise distinct. That a delay has writes of its own group
on both sides is the model's reading of "inside" (log entry 19). -/
def Obligations.InitSequenceKeepsItsShape : Prop :=
  ∀ p : HostParams,
    (∃ (before between after : List RegWrite) (t1 t2 : Nat), before ≠ [] ∧ after ≠ [] ∧ 50 ≤ t1 ∧ 50 ≤ t2 ∧
      initSeq p = writeItems (p.entryMode ++ p.timing ++ before) ++ [.delay t1] ++ writeItems between ++
        [.delay t2] ++ writeItems (after ++ p.gamma ++ p.window ++ p.displayOn)) ∧
    lastValue p.window p.regHStart = some 0 ∧ lastValue p.window p.regVStart = some 0 ∧
    lastValue p.window p.regHEnd = some 239 ∧ lastValue p.window p.regVEnd = some 319 ∧
    [p.regHStart, p.regVStart, p.regHEnd, p.regVEnd].Nodup
end

