-- ==== Sys2Proof/Laws/Decode.lean ====
section
/-! SUPPORT. The byte order of a 16-bit value, payloads, and the frames a decoder meets. -/

namespace Sys2Proof

/-! ### The two bytes of a 16-bit value -/

theorem hiByte_toNat (v : U16) : (hiByte v).toNat = v.toNat / 256 := by
  have := v.isLt
  simp [hiByte, BitVec.extractLsb'_toNat, Nat.shiftRight_eq_div_pow]
  omega

theorem loByte_toNat (v : U16) : (loByte v).toNat = v.toNat % 256 := by
  simp [loByte, BitVec.extractLsb'_toNat]

theorem joinBytes_toNat (h l : Byte) : (joinBytes h l).toNat = h.toNat * 256 + l.toNat := by
  have := l.isLt
  simp only [joinBytes, BitVec.toNat_append]
  rw [← Nat.shiftLeft_add_eq_or_of_lt this, Nat.shiftLeft_eq]

@[simp] theorem joinBytes_hi_lo (a : U16) : joinBytes (hiByte a) (loByte a) = a := by
  apply BitVec.eq_of_toNat_eq
  rw [joinBytes_toNat, hiByte_toNat, loByte_toNat]
  omega

@[simp] theorem hiByte_joinBytes (h l : Byte) : hiByte (joinBytes h l) = h := by
  have := l.isLt
  apply BitVec.eq_of_toNat_eq
  rw [hiByte_toNat, joinBytes_toNat]
  omega

@[simp] theorem loByte_joinBytes (h l : Byte) : loByte (joinBytes h l) = l := by
  have := l.isLt
  apply BitVec.eq_of_toNat_eq
  rw [loByte_toNat, joinBytes_toNat]
  omega

/-! ### Payloads -/

theorem pixelBytes_length (ps : List Pixel) : (pixelBytes ps).length = 2 * ps.length := by
  induction ps with
  | nil => rfl
  | cons p ps ih => simp [pixelBytes, ih]; omega

theorem rgbBytes_length (ps : List Rgb) : (rgbBytes ps).length = 3 * ps.length := by
  induction ps with
  | nil => rfl
  | cons p ps ih => simp [rgbBytes, ih]; omega

@[simp] theorem bytesPixels_pixelBytes (ps : List Pixel) : bytesPixels (pixelBytes ps) = some ps := by
  induction ps with
  | nil => rfl
  | cons p ps ih => simp [pixelBytes, bytesPixels, ih]

/-- Bytes that are pixels are the bytes of those pixels. -/
theorem bytesPixels_some {l : List Byte} {ps : List Pixel} (h : bytesPixels l = some ps) : l = pixelBytes ps := by
  induction l using bytesPixels.induct generalizing ps with
  | case1 => cases h; rfl
  | case2 => cases h
  | case3 a b r ih =>
    obtain ⟨qs, h1, rfl⟩ := Option.map_eq_some_iff.mp h
    rw [ih h1]
    simp [pixelBytes]

/-! ### Frames -/

theorem decodeFrame_index (a : U16) : decodeFrame (indexFrameBytes a) = .ok (indexFrame a) := by
  simp [decodeFrame, indexFrameBytes]

theorem decodeFrame_data (v : U16) : decodeFrame (dataFrameBytes v) = .ok (.datframe v) := by
  simp [decodeFrame, dataFrameBytes, dataFrame, bytesPixels]

theorem decodeFrame_stream {ps : List Pixel} (h : ps.length ≠ 1) :
    decodeFrame (streamFrameBytes ps) = .ok (.pixframe ps) := by
  match ps with
  | [] => rfl
  | [_] => simp at h
  | p :: q :: qs =>
    have hb := bytesPixels_pixelBytes (p :: q :: qs)
    unfold decodeFrame streamFrameBytes dataFrame
    simp [hb]

end Sys2Proof
end

