-- ==== Sys2Proof/Laws/State.lean ====
section
/-! SUPPORT. One lemma for each field and each shared update: what the update writes, and that it leaves every other
field as it was. The downstream operations write `ctrl` and `free` only, which `DownstreamOnly` says once for each. -/

namespace Sys2Proof.Machine

/-! ### Updates of one field -/

@[simp] theorem State.setCsN_csN (l : Level) (s : State) : (s.setCsN l).csN = l := rfl
@[simp] theorem State.setCsN_rstN (l : Level) (s : State) : (s.setCsN l).rstN = s.rstN := rfl
@[simp] theorem State.setCsN_speedHz (l : Level) (s : State) : (s.setCsN l).speedHz = s.speedHz := rfl
@[simp] theorem State.setCsN_speedActive (l : Level) (s : State) : (s.setCsN l).speedActive = s.speedActive := rfl
@[simp] theorem State.setCsN_spiMode (l : Level) (s : State) : (s.setCsN l).spiMode = s.spiMode := rfl
@[simp] theorem State.setCsN_seq (l : Level) (s : State) : (s.setCsN l).seq = s.seq := rfl
@[simp] theorem State.setCsN_fault (l : Level) (s : State) : (s.setCsN l).fault = s.fault := rfl
@[simp] theorem State.setCsN_trace (l : Level) (s : State) : (s.setCsN l).trace = s.trace := rfl
@[simp] theorem State.setCsN_completions (l : Level) (s : State) : (s.setCsN l).completions = s.completions := rfl
@[simp] theorem State.setCsN_env (l : Level) (s : State) : (s.setCsN l).env = s.env := rfl
@[simp] theorem State.setCsN_drv (l : Level) (s : State) : (s.setCsN l).drv = s.drv := rfl
@[simp] theorem State.setCsN_hostSeq (l : Level) (s : State) : (s.setCsN l).hostSeq = s.hostSeq := rfl
@[simp] theorem State.setCsN_inbox (l : Level) (s : State) : (s.setCsN l).inbox = s.inbox := rfl
@[simp] theorem State.setCsN_hostLog (l : Level) (s : State) : (s.setCsN l).hostLog = s.hostLog := rfl
@[simp] theorem State.setCsN_ctrl (l : Level) (s : State) : (s.setCsN l).ctrl = s.ctrl := rfl
@[simp] theorem State.setCsN_free (l : Level) (s : State) : (s.setCsN l).free = s.free := rfl

@[simp] theorem State.setRstN_csN (l : Level) (s : State) : (s.setRstN l).csN = s.csN := rfl
@[simp] theorem State.setRstN_rstN (l : Level) (s : State) : (s.setRstN l).rstN = l := rfl
@[simp] theorem State.setRstN_speedHz (l : Level) (s : State) : (s.setRstN l).speedHz = s.speedHz := rfl
@[simp] theorem State.setRstN_speedActive (l : Level) (s : State) : (s.setRstN l).speedActive = s.speedActive := rfl
@[simp] theorem State.setRstN_spiMode (l : Level) (s : State) : (s.setRstN l).spiMode = s.spiMode := rfl
@[simp] theorem State.setRstN_seq (l : Level) (s : State) : (s.setRstN l).seq = s.seq := rfl
@[simp] theorem State.setRstN_fault (l : Level) (s : State) : (s.setRstN l).fault = s.fault := rfl
@[simp] theorem State.setRstN_trace (l : Level) (s : State) : (s.setRstN l).trace = s.trace := rfl
@[simp] theorem State.setRstN_completions (l : Level) (s : State) : (s.setRstN l).completions = s.completions := rfl
@[simp] theorem State.setRstN_env (l : Level) (s : State) : (s.setRstN l).env = s.env := rfl
@[simp] theorem State.setRstN_drv (l : Level) (s : State) : (s.setRstN l).drv = s.drv := rfl
@[simp] theorem State.setRstN_hostSeq (l : Level) (s : State) : (s.setRstN l).hostSeq = s.hostSeq := rfl
@[simp] theorem State.setRstN_inbox (l : Level) (s : State) : (s.setRstN l).inbox = s.inbox := rfl
@[simp] theorem State.setRstN_hostLog (l : Level) (s : State) : (s.setRstN l).hostLog = s.hostLog := rfl
@[simp] theorem State.setRstN_ctrl (l : Level) (s : State) : (s.setRstN l).ctrl = s.ctrl := rfl
@[simp] theorem State.setRstN_free (l : Level) (s : State) : (s.setRstN l).free = s.free := rfl

@[simp] theorem State.setSpeedHz_csN (hz : U32) (s : State) : (s.setSpeedHz hz).csN = s.csN := rfl
@[simp] theorem State.setSpeedHz_rstN (hz : U32) (s : State) : (s.setSpeedHz hz).rstN = s.rstN := rfl
@[simp] theorem State.setSpeedHz_speedHz (hz : U32) (s : State) : (s.setSpeedHz hz).speedHz = hz := rfl
@[simp] theorem State.setSpeedHz_speedActive (hz : U32) (s : State) : (s.setSpeedHz hz).speedActive = s.speedActive := rfl
@[simp] theorem State.setSpeedHz_spiMode (hz : U32) (s : State) : (s.setSpeedHz hz).spiMode = s.spiMode := rfl
@[simp] theorem State.setSpeedHz_seq (hz : U32) (s : State) : (s.setSpeedHz hz).seq = s.seq := rfl
@[simp] theorem State.setSpeedHz_fault (hz : U32) (s : State) : (s.setSpeedHz hz).fault = s.fault := rfl
@[simp] theorem State.setSpeedHz_trace (hz : U32) (s : State) : (s.setSpeedHz hz).trace = s.trace := rfl
@[simp] theorem State.setSpeedHz_completions (hz : U32) (s : State) : (s.setSpeedHz hz).completions = s.completions := rfl
@[simp] theorem State.setSpeedHz_env (hz : U32) (s : State) : (s.setSpeedHz hz).env = s.env := rfl
@[simp] theorem State.setSpeedHz_drv (hz : U32) (s : State) : (s.setSpeedHz hz).drv = s.drv := rfl
@[simp] theorem State.setSpeedHz_hostSeq (hz : U32) (s : State) : (s.setSpeedHz hz).hostSeq = s.hostSeq := rfl
@[simp] theorem State.setSpeedHz_inbox (hz : U32) (s : State) : (s.setSpeedHz hz).inbox = s.inbox := rfl
@[simp] theorem State.setSpeedHz_hostLog (hz : U32) (s : State) : (s.setSpeedHz hz).hostLog = s.hostLog := rfl
@[simp] theorem State.setSpeedHz_ctrl (hz : U32) (s : State) : (s.setSpeedHz hz).ctrl = s.ctrl := rfl
@[simp] theorem State.setSpeedHz_free (hz : U32) (s : State) : (s.setSpeedHz hz).free = s.free := rfl

@[simp] theorem State.setSpeedActive_csN (hz : U32) (s : State) : (s.setSpeedActive hz).csN = s.csN := rfl
@[simp] theorem State.setSpeedActive_rstN (hz : U32) (s : State) : (s.setSpeedActive hz).rstN = s.rstN := rfl
@[simp] theorem State.setSpeedActive_speedHz (hz : U32) (s : State) : (s.setSpeedActive hz).speedHz = s.speedHz := rfl
@[simp] theorem State.setSpeedActive_speedActive (hz : U32) (s : State) : (s.setSpeedActive hz).speedActive = hz := rfl
@[simp] theorem State.setSpeedActive_spiMode (hz : U32) (s : State) : (s.setSpeedActive hz).spiMode = s.spiMode := rfl
@[simp] theorem State.setSpeedActive_seq (hz : U32) (s : State) : (s.setSpeedActive hz).seq = s.seq := rfl
@[simp] theorem State.setSpeedActive_fault (hz : U32) (s : State) : (s.setSpeedActive hz).fault = s.fault := rfl
@[simp] theorem State.setSpeedActive_trace (hz : U32) (s : State) : (s.setSpeedActive hz).trace = s.trace := rfl
@[simp] theorem State.setSpeedActive_completions (hz : U32) (s : State) : (s.setSpeedActive hz).completions = s.completions := rfl
@[simp] theorem State.setSpeedActive_env (hz : U32) (s : State) : (s.setSpeedActive hz).env = s.env := rfl
@[simp] theorem State.setSpeedActive_drv (hz : U32) (s : State) : (s.setSpeedActive hz).drv = s.drv := rfl
@[simp] theorem State.setSpeedActive_hostSeq (hz : U32) (s : State) : (s.setSpeedActive hz).hostSeq = s.hostSeq := rfl
@[simp] theorem State.setSpeedActive_inbox (hz : U32) (s : State) : (s.setSpeedActive hz).inbox = s.inbox := rfl
@[simp] theorem State.setSpeedActive_hostLog (hz : U32) (s : State) : (s.setSpeedActive hz).hostLog = s.hostLog := rfl
@[simp] theorem State.setSpeedActive_ctrl (hz : U32) (s : State) : (s.setSpeedActive hz).ctrl = s.ctrl := rfl
@[simp] theorem State.setSpeedActive_free (hz : U32) (s : State) : (s.setSpeedActive hz).free = s.free := rfl

@[simp] theorem State.setSeq_csN (l : List MicroOp) (s : State) : (s.setSeq l).csN = s.csN := rfl
@[simp] theorem State.setSeq_rstN (l : List MicroOp) (s : State) : (s.setSeq l).rstN = s.rstN := rfl
@[simp] theorem State.setSeq_speedHz (l : List MicroOp) (s : State) : (s.setSeq l).speedHz = s.speedHz := rfl
@[simp] theorem State.setSeq_speedActive (l : List MicroOp) (s : State) : (s.setSeq l).speedActive = s.speedActive := rfl
@[simp] theorem State.setSeq_spiMode (l : List MicroOp) (s : State) : (s.setSeq l).spiMode = s.spiMode := rfl
@[simp] theorem State.setSeq_seq (l : List MicroOp) (s : State) : (s.setSeq l).seq = l := rfl
@[simp] theorem State.setSeq_fault (l : List MicroOp) (s : State) : (s.setSeq l).fault = s.fault := rfl
@[simp] theorem State.setSeq_trace (l : List MicroOp) (s : State) : (s.setSeq l).trace = s.trace := rfl
@[simp] theorem State.setSeq_completions (l : List MicroOp) (s : State) : (s.setSeq l).completions = s.completions := rfl
@[simp] theorem State.setSeq_env (l : List MicroOp) (s : State) : (s.setSeq l).env = s.env := rfl
@[simp] theorem State.setSeq_drv (l : List MicroOp) (s : State) : (s.setSeq l).drv = s.drv := rfl
@[simp] theorem State.setSeq_hostSeq (l : List MicroOp) (s : State) : (s.setSeq l).hostSeq = s.hostSeq := rfl
@[simp] theorem State.setSeq_inbox (l : List MicroOp) (s : State) : (s.setSeq l).inbox = s.inbox := rfl
@[simp] theorem State.setSeq_hostLog (l : List MicroOp) (s : State) : (s.setSeq l).hostLog = s.hostLog := rfl
@[simp] theorem State.setSeq_ctrl (l : List MicroOp) (s : State) : (s.setSeq l).ctrl = s.ctrl := rfl
@[simp] theorem State.setSeq_free (l : List MicroOp) (s : State) : (s.setSeq l).free = s.free := rfl

@[simp] theorem State.setFault_csN (c : BitVec 3) (s : State) : (s.setFault c).csN = s.csN := rfl
@[simp] theorem State.setFault_rstN (c : BitVec 3) (s : State) : (s.setFault c).rstN = s.rstN := rfl
@[simp] theorem State.setFault_speedHz (c : BitVec 3) (s : State) : (s.setFault c).speedHz = s.speedHz := rfl
@[simp] theorem State.setFault_speedActive (c : BitVec 3) (s : State) : (s.setFault c).speedActive = s.speedActive := rfl
@[simp] theorem State.setFault_spiMode (c : BitVec 3) (s : State) : (s.setFault c).spiMode = s.spiMode := rfl
@[simp] theorem State.setFault_seq (c : BitVec 3) (s : State) : (s.setFault c).seq = s.seq := rfl
@[simp] theorem State.setFault_fault (c : BitVec 3) (s : State) : (s.setFault c).fault = c := rfl
@[simp] theorem State.setFault_trace (c : BitVec 3) (s : State) : (s.setFault c).trace = s.trace := rfl
@[simp] theorem State.setFault_completions (c : BitVec 3) (s : State) : (s.setFault c).completions = s.completions := rfl
@[simp] theorem State.setFault_env (c : BitVec 3) (s : State) : (s.setFault c).env = s.env := rfl
@[simp] theorem State.setFault_drv (c : BitVec 3) (s : State) : (s.setFault c).drv = s.drv := rfl
@[simp] theorem State.setFault_hostSeq (c : BitVec 3) (s : State) : (s.setFault c).hostSeq = s.hostSeq := rfl
@[simp] theorem State.setFault_inbox (c : BitVec 3) (s : State) : (s.setFault c).inbox = s.inbox := rfl
@[simp] theorem State.setFault_hostLog (c : BitVec 3) (s : State) : (s.setFault c).hostLog = s.hostLog := rfl
@[simp] theorem State.setFault_ctrl (c : BitVec 3) (s : State) : (s.setFault c).ctrl = s.ctrl := rfl
@[simp] theorem State.setFault_free (c : BitVec 3) (s : State) : (s.setFault c).free = s.free := rfl

@[simp] theorem State.pushTrace_csN (e : Event) (s : State) : (s.pushTrace e).csN = s.csN := rfl
@[simp] theorem State.pushTrace_rstN (e : Event) (s : State) : (s.pushTrace e).rstN = s.rstN := rfl
@[simp] theorem State.pushTrace_speedHz (e : Event) (s : State) : (s.pushTrace e).speedHz = s.speedHz := rfl
@[simp] theorem State.pushTrace_speedActive (e : Event) (s : State) : (s.pushTrace e).speedActive = s.speedActive := rfl
@[simp] theorem State.pushTrace_spiMode (e : Event) (s : State) : (s.pushTrace e).spiMode = s.spiMode := rfl
@[simp] theorem State.pushTrace_seq (e : Event) (s : State) : (s.pushTrace e).seq = s.seq := rfl
@[simp] theorem State.pushTrace_fault (e : Event) (s : State) : (s.pushTrace e).fault = s.fault := rfl
@[simp] theorem State.pushTrace_trace (e : Event) (s : State) : (s.pushTrace e).trace = s.trace ++ [e] := rfl
@[simp] theorem State.pushTrace_completions (e : Event) (s : State) : (s.pushTrace e).completions = s.completions := rfl
@[simp] theorem State.pushTrace_env (e : Event) (s : State) : (s.pushTrace e).env = s.env := rfl
@[simp] theorem State.pushTrace_drv (e : Event) (s : State) : (s.pushTrace e).drv = s.drv := rfl
@[simp] theorem State.pushTrace_hostSeq (e : Event) (s : State) : (s.pushTrace e).hostSeq = s.hostSeq := rfl
@[simp] theorem State.pushTrace_inbox (e : Event) (s : State) : (s.pushTrace e).inbox = s.inbox := rfl
@[simp] theorem State.pushTrace_hostLog (e : Event) (s : State) : (s.pushTrace e).hostLog = s.hostLog := rfl
@[simp] theorem State.pushTrace_ctrl (e : Event) (s : State) : (s.pushTrace e).ctrl = s.ctrl := rfl
@[simp] theorem State.pushTrace_free (e : Event) (s : State) : (s.pushTrace e).free = s.free := rfl

@[simp] theorem State.setEnv_csN (e : Env) (s : State) : (s.setEnv e).csN = s.csN := rfl
@[simp] theorem State.setEnv_rstN (e : Env) (s : State) : (s.setEnv e).rstN = s.rstN := rfl
@[simp] theorem State.setEnv_speedHz (e : Env) (s : State) : (s.setEnv e).speedHz = s.speedHz := rfl
@[simp] theorem State.setEnv_speedActive (e : Env) (s : State) : (s.setEnv e).speedActive = s.speedActive := rfl
@[simp] theorem State.setEnv_spiMode (e : Env) (s : State) : (s.setEnv e).spiMode = s.spiMode := rfl
@[simp] theorem State.setEnv_seq (e : Env) (s : State) : (s.setEnv e).seq = s.seq := rfl
@[simp] theorem State.setEnv_fault (e : Env) (s : State) : (s.setEnv e).fault = s.fault := rfl
@[simp] theorem State.setEnv_trace (e : Env) (s : State) : (s.setEnv e).trace = s.trace := rfl
@[simp] theorem State.setEnv_completions (e : Env) (s : State) : (s.setEnv e).completions = s.completions := rfl
@[simp] theorem State.setEnv_env (e : Env) (s : State) : (s.setEnv e).env = e := rfl
@[simp] theorem State.setEnv_drv (e : Env) (s : State) : (s.setEnv e).drv = s.drv := rfl
@[simp] theorem State.setEnv_hostSeq (e : Env) (s : State) : (s.setEnv e).hostSeq = s.hostSeq := rfl
@[simp] theorem State.setEnv_inbox (e : Env) (s : State) : (s.setEnv e).inbox = s.inbox := rfl
@[simp] theorem State.setEnv_hostLog (e : Env) (s : State) : (s.setEnv e).hostLog = s.hostLog := rfl
@[simp] theorem State.setEnv_ctrl (e : Env) (s : State) : (s.setEnv e).ctrl = s.ctrl := rfl
@[simp] theorem State.setEnv_free (e : Env) (s : State) : (s.setEnv e).free = s.free := rfl

@[simp] theorem State.setCtrl_csN (c : Controller) (s : State) : (s.setCtrl c).csN = s.csN := rfl
@[simp] theorem State.setCtrl_rstN (c : Controller) (s : State) : (s.setCtrl c).rstN = s.rstN := rfl
@[simp] theorem State.setCtrl_speedHz (c : Controller) (s : State) : (s.setCtrl c).speedHz = s.speedHz := rfl
@[simp] theorem State.setCtrl_speedActive (c : Controller) (s : State) : (s.setCtrl c).speedActive = s.speedActive := rfl
@[simp] theorem State.setCtrl_spiMode (c : Controller) (s : State) : (s.setCtrl c).spiMode = s.spiMode := rfl
@[simp] theorem State.setCtrl_seq (c : Controller) (s : State) : (s.setCtrl c).seq = s.seq := rfl
@[simp] theorem State.setCtrl_fault (c : Controller) (s : State) : (s.setCtrl c).fault = s.fault := rfl
@[simp] theorem State.setCtrl_trace (c : Controller) (s : State) : (s.setCtrl c).trace = s.trace := rfl
@[simp] theorem State.setCtrl_completions (c : Controller) (s : State) : (s.setCtrl c).completions = s.completions := rfl
@[simp] theorem State.setCtrl_env (c : Controller) (s : State) : (s.setCtrl c).env = s.env := rfl
@[simp] theorem State.setCtrl_drv (c : Controller) (s : State) : (s.setCtrl c).drv = s.drv := rfl
@[simp] theorem State.setCtrl_hostSeq (c : Controller) (s : State) : (s.setCtrl c).hostSeq = s.hostSeq := rfl
@[simp] theorem State.setCtrl_inbox (c : Controller) (s : State) : (s.setCtrl c).inbox = s.inbox := rfl
@[simp] theorem State.setCtrl_hostLog (c : Controller) (s : State) : (s.setCtrl c).hostLog = s.hostLog := rfl
@[simp] theorem State.setCtrl_ctrl (c : Controller) (s : State) : (s.setCtrl c).ctrl = c := rfl
@[simp] theorem State.setCtrl_free (c : Controller) (s : State) : (s.setCtrl c).free = s.free := rfl

@[simp] theorem State.setCtrlFree_csN (c : Controller) (s : State) : (s.setCtrlFree c).csN = s.csN := rfl
@[simp] theorem State.setCtrlFree_rstN (c : Controller) (s : State) : (s.setCtrlFree c).rstN = s.rstN := rfl
@[simp] theorem State.setCtrlFree_speedHz (c : Controller) (s : State) : (s.setCtrlFree c).speedHz = s.speedHz := rfl
@[simp] theorem State.setCtrlFree_speedActive (c : Controller) (s : State) : (s.setCtrlFree c).speedActive = s.speedActive := rfl
@[simp] theorem State.setCtrlFree_spiMode (c : Controller) (s : State) : (s.setCtrlFree c).spiMode = s.spiMode := rfl
@[simp] theorem State.setCtrlFree_seq (c : Controller) (s : State) : (s.setCtrlFree c).seq = s.seq := rfl
@[simp] theorem State.setCtrlFree_fault (c : Controller) (s : State) : (s.setCtrlFree c).fault = s.fault := rfl
@[simp] theorem State.setCtrlFree_trace (c : Controller) (s : State) : (s.setCtrlFree c).trace = s.trace := rfl
@[simp] theorem State.setCtrlFree_completions (c : Controller) (s : State) : (s.setCtrlFree c).completions = s.completions := rfl
@[simp] theorem State.setCtrlFree_env (c : Controller) (s : State) : (s.setCtrlFree c).env = s.env := rfl
@[simp] theorem State.setCtrlFree_drv (c : Controller) (s : State) : (s.setCtrlFree c).drv = s.drv := rfl
@[simp] theorem State.setCtrlFree_hostSeq (c : Controller) (s : State) : (s.setCtrlFree c).hostSeq = s.hostSeq := rfl
@[simp] theorem State.setCtrlFree_inbox (c : Controller) (s : State) : (s.setCtrlFree c).inbox = s.inbox := rfl
@[simp] theorem State.setCtrlFree_hostLog (c : Controller) (s : State) : (s.setCtrlFree c).hostLog = s.hostLog := rfl
@[simp] theorem State.setCtrlFree_ctrl (c : Controller) (s : State) : (s.setCtrlFree c).ctrl = c := rfl
@[simp] theorem State.setCtrlFree_free (c : Controller) (s : State) : (s.setCtrlFree c).free = s.free + 1 := rfl

@[simp] theorem State.setDrv_csN (d : DrvState) (s : State) : (s.setDrv d).csN = s.csN := rfl
@[simp] theorem State.setDrv_rstN (d : DrvState) (s : State) : (s.setDrv d).rstN = s.rstN := rfl
@[simp] theorem State.setDrv_speedHz (d : DrvState) (s : State) : (s.setDrv d).speedHz = s.speedHz := rfl
@[simp] theorem State.setDrv_speedActive (d : DrvState) (s : State) : (s.setDrv d).speedActive = s.speedActive := rfl
@[simp] theorem State.setDrv_spiMode (d : DrvState) (s : State) : (s.setDrv d).spiMode = s.spiMode := rfl
@[simp] theorem State.setDrv_seq (d : DrvState) (s : State) : (s.setDrv d).seq = s.seq := rfl
@[simp] theorem State.setDrv_fault (d : DrvState) (s : State) : (s.setDrv d).fault = s.fault := rfl
@[simp] theorem State.setDrv_trace (d : DrvState) (s : State) : (s.setDrv d).trace = s.trace := rfl
@[simp] theorem State.setDrv_completions (d : DrvState) (s : State) : (s.setDrv d).completions = s.completions := rfl
@[simp] theorem State.setDrv_env (d : DrvState) (s : State) : (s.setDrv d).env = s.env := rfl
@[simp] theorem State.setDrv_drv (d : DrvState) (s : State) : (s.setDrv d).drv = d := rfl
@[simp] theorem State.setDrv_hostSeq (d : DrvState) (s : State) : (s.setDrv d).hostSeq = s.hostSeq := rfl
@[simp] theorem State.setDrv_inbox (d : DrvState) (s : State) : (s.setDrv d).inbox = s.inbox := rfl
@[simp] theorem State.setDrv_hostLog (d : DrvState) (s : State) : (s.setDrv d).hostLog = s.hostLog := rfl
@[simp] theorem State.setDrv_ctrl (d : DrvState) (s : State) : (s.setDrv d).ctrl = s.ctrl := rfl
@[simp] theorem State.setDrv_free (d : DrvState) (s : State) : (s.setDrv d).free = s.free := rfl

@[simp] theorem State.setHostSeq_csN (l : List HostStep) (s : State) : (s.setHostSeq l).csN = s.csN := rfl
@[simp] theorem State.setHostSeq_rstN (l : List HostStep) (s : State) : (s.setHostSeq l).rstN = s.rstN := rfl
@[simp] theorem State.setHostSeq_speedHz (l : List HostStep) (s : State) : (s.setHostSeq l).speedHz = s.speedHz := rfl
@[simp] theorem State.setHostSeq_speedActive (l : List HostStep) (s : State) : (s.setHostSeq l).speedActive = s.speedActive := rfl
@[simp] theorem State.setHostSeq_spiMode (l : List HostStep) (s : State) : (s.setHostSeq l).spiMode = s.spiMode := rfl
@[simp] theorem State.setHostSeq_seq (l : List HostStep) (s : State) : (s.setHostSeq l).seq = s.seq := rfl
@[simp] theorem State.setHostSeq_fault (l : List HostStep) (s : State) : (s.setHostSeq l).fault = s.fault := rfl
@[simp] theorem State.setHostSeq_trace (l : List HostStep) (s : State) : (s.setHostSeq l).trace = s.trace := rfl
@[simp] theorem State.setHostSeq_completions (l : List HostStep) (s : State) : (s.setHostSeq l).completions = s.completions := rfl
@[simp] theorem State.setHostSeq_env (l : List HostStep) (s : State) : (s.setHostSeq l).env = s.env := rfl
@[simp] theorem State.setHostSeq_drv (l : List HostStep) (s : State) : (s.setHostSeq l).drv = s.drv := rfl
@[simp] theorem State.setHostSeq_hostSeq (l : List HostStep) (s : State) : (s.setHostSeq l).hostSeq = l := rfl
@[simp] theorem State.setHostSeq_inbox (l : List HostStep) (s : State) : (s.setHostSeq l).inbox = s.inbox := rfl
@[simp] theorem State.setHostSeq_hostLog (l : List HostStep) (s : State) : (s.setHostSeq l).hostLog = s.hostLog := rfl
@[simp] theorem State.setHostSeq_ctrl (l : List HostStep) (s : State) : (s.setHostSeq l).ctrl = s.ctrl := rfl
@[simp] theorem State.setHostSeq_free (l : List HostStep) (s : State) : (s.setHostSeq l).free = s.free := rfl

@[simp] theorem State.setInbox_csN (l : List Stimulus) (s : State) : (s.setInbox l).csN = s.csN := rfl
@[simp] theorem State.setInbox_rstN (l : List Stimulus) (s : State) : (s.setInbox l).rstN = s.rstN := rfl
@[simp] theorem State.setInbox_speedHz (l : List Stimulus) (s : State) : (s.setInbox l).speedHz = s.speedHz := rfl
@[simp] theorem State.setInbox_speedActive (l : List Stimulus) (s : State) : (s.setInbox l).speedActive = s.speedActive := rfl
@[simp] theorem State.setInbox_spiMode (l : List Stimulus) (s : State) : (s.setInbox l).spiMode = s.spiMode := rfl
@[simp] theorem State.setInbox_seq (l : List Stimulus) (s : State) : (s.setInbox l).seq = s.seq := rfl
@[simp] theorem State.setInbox_fault (l : List Stimulus) (s : State) : (s.setInbox l).fault = s.fault := rfl
@[simp] theorem State.setInbox_trace (l : List Stimulus) (s : State) : (s.setInbox l).trace = s.trace := rfl
@[simp] theorem State.setInbox_completions (l : List Stimulus) (s : State) : (s.setInbox l).completions = s.completions := rfl
@[simp] theorem State.setInbox_env (l : List Stimulus) (s : State) : (s.setInbox l).env = s.env := rfl
@[simp] theorem State.setInbox_drv (l : List Stimulus) (s : State) : (s.setInbox l).drv = s.drv := rfl
@[simp] theorem State.setInbox_hostSeq (l : List Stimulus) (s : State) : (s.setInbox l).hostSeq = s.hostSeq := rfl
@[simp] theorem State.setInbox_inbox (l : List Stimulus) (s : State) : (s.setInbox l).inbox = l := rfl
@[simp] theorem State.setInbox_hostLog (l : List Stimulus) (s : State) : (s.setInbox l).hostLog = s.hostLog := rfl
@[simp] theorem State.setInbox_ctrl (l : List Stimulus) (s : State) : (s.setInbox l).ctrl = s.ctrl := rfl
@[simp] theorem State.setInbox_free (l : List Stimulus) (s : State) : (s.setInbox l).free = s.free := rfl

/-- Only the downstream view and the counter of free values may differ. -/
def DownstreamOnly (s t : State) : Prop := t = { s with ctrl := t.ctrl, free := t.free }

theorem DownstreamOnly.trans {s t u : State} (h : DownstreamOnly s t) (h' : DownstreamOnly t u) :
    DownstreamOnly s u := by
  unfold DownstreamOnly at *
  rw [h'] at *
  rw [h]

/-! ### The downstream operations -/

theorem openDownstream_only (s : State) : DownstreamOnly s (openDownstream s) := rfl

theorem openWptr_only (s : State) : DownstreamOnly s (openWptr s) := rfl

theorem selectIndex_only (a : U16) (s : State) : DownstreamOnly s (selectIndex a s) := by
  unfold selectIndex
  split <;> rfl

theorem writeRegister_only (v : U16) (s : State) : DownstreamOnly s (writeRegister v s) := rfl

theorem writePixel_only (p : Pixel) (s : State) : DownstreamOnly s (writePixel p s) := rfl

theorem writePixels_only (ps : List Pixel) (s : State) : DownstreamOnly s (writePixels ps s) := by
  induction ps generalizing s with
  | nil => rfl
  | cons p ps ih => exact (writePixel_only p s).trans (ih _)

theorem receiveData_only (v : U16) (s : State) : DownstreamOnly s (receiveData v s) := by
  unfold receiveData
  split
  · exact writePixel_only v s
  · exact writeRegister_only v s

theorem receiveStream_only (ps : List Pixel) (s : State) : DownstreamOnly s (receiveStream ps s) := by
  unfold receiveStream
  split
  · exact openDownstream_only s
  · exact receiveData_only _ s
  · split
    · exact writePixels_only _ s
    · exact openDownstream_only s

theorem frameEffect_only (i : Instr) (s : State) : DownstreamOnly s (frameEffect i s) := by
  cases i with
  | idxframe a => exact selectIndex_only a s
  | gramsel => exact selectIndex_only Config.gramReg s
  | datframe v => exact receiveData_only v s
  | pixframe ps => exact receiveStream_only ps s
  | _ => exact openDownstream_only s

theorem receiveFrame_ok {bytes : List Byte} {i : Instr} (h : decodeFrame bytes = .ok i) (s : State) :
    receiveFrame bytes s = frameEffect i s := by
  unfold receiveFrame
  rw [h]

theorem receiveFrame_error {bytes : List Byte} {e : DecodeError} (h : decodeFrame bytes = .error e) (s : State) :
    receiveFrame bytes s = openDownstream s := by
  unfold receiveFrame
  rw [h]

theorem receiveFrame_only (bytes : List Byte) (s : State) : DownstreamOnly s (receiveFrame bytes s) := by
  cases h : decodeFrame bytes with
  | error e => exact receiveFrame_error h s ▸ openDownstream_only s
  | ok i => exact receiveFrame_ok h s ▸ frameEffect_only i s

theorem observe_only (e : Event) (s : State) : DownstreamOnly s (observe e s) := by
  unfold observe
  split
  · rfl
  · split
    · exact DownstreamOnly.trans (t := s.setCtrl { s.ctrl with rx := none }) rfl (receiveFrame_only _ _)
    · rfl
  all_goals rfl

/-! ### Fields after an event -/

@[simp] theorem emit_csN (e : Event) (s : State) : (emit e s).csN = s.csN := by
  unfold emit; rw [observe_only]; rfl
@[simp] theorem emit_rstN (e : Event) (s : State) : (emit e s).rstN = s.rstN := by
  unfold emit; rw [observe_only]; rfl
@[simp] theorem emit_speedHz (e : Event) (s : State) : (emit e s).speedHz = s.speedHz := by
  unfold emit; rw [observe_only]; rfl
@[simp] theorem emit_speedActive (e : Event) (s : State) : (emit e s).speedActive = s.speedActive := by
  unfold emit; rw [observe_only]; rfl
@[simp] theorem emit_spiMode (e : Event) (s : State) : (emit e s).spiMode = s.spiMode := by
  unfold emit; rw [observe_only]; rfl
@[simp] theorem emit_seq (e : Event) (s : State) : (emit e s).seq = s.seq := by
  unfold emit; rw [observe_only]; rfl
@[simp] theorem emit_fault (e : Event) (s : State) : (emit e s).fault = s.fault := by
  unfold emit; rw [observe_only]; rfl
@[simp] theorem emit_trace (e : Event) (s : State) : (emit e s).trace = s.trace ++ [e] := by
  unfold emit; rw [observe_only]; rfl
@[simp] theorem emit_completions (e : Event) (s : State) : (emit e s).completions = s.completions := by
  unfold emit; rw [observe_only]; rfl
@[simp] theorem emit_env (e : Event) (s : State) : (emit e s).env = s.env := by
  unfold emit; rw [observe_only]; rfl
@[simp] theorem emit_drv (e : Event) (s : State) : (emit e s).drv = s.drv := by
  unfold emit; rw [observe_only]; rfl
@[simp] theorem emit_hostSeq (e : Event) (s : State) : (emit e s).hostSeq = s.hostSeq := by
  unfold emit; rw [observe_only]; rfl
@[simp] theorem emit_inbox (e : Event) (s : State) : (emit e s).inbox = s.inbox := by
  unfold emit; rw [observe_only]; rfl
@[simp] theorem emit_hostLog (e : Event) (s : State) : (emit e s).hostLog = s.hostLog := by
  unfold emit; rw [observe_only]; rfl

theorem emit_tx (b : Byte) (s : State) :
    emit (.tx b) s = (s.pushTrace (.tx b)).setCtrl { s.ctrl with rx := s.ctrl.rx.map (· ++ [b]) } := rfl

@[simp] theorem emitBytes_csN (bs : List Byte) (s : State) : (emitBytes bs s).csN = s.csN := by
  induction bs generalizing s with
  | nil => simp [emitBytes]
  | cons b bs ih => simp [emitBytes, ih]
@[simp] theorem emitBytes_rstN (bs : List Byte) (s : State) : (emitBytes bs s).rstN = s.rstN := by
  induction bs generalizing s with
  | nil => simp [emitBytes]
  | cons b bs ih => simp [emitBytes, ih]
@[simp] theorem emitBytes_speedHz (bs : List Byte) (s : State) : (emitBytes bs s).speedHz = s.speedHz := by
  induction bs generalizing s with
  | nil => simp [emitBytes]
  | cons b bs ih => simp [emitBytes, ih]
@[simp] theorem emitBytes_speedActive (bs : List Byte) (s : State) : (emitBytes bs s).speedActive = s.speedActive := by
  induction bs generalizing s with
  | nil => simp [emitBytes]
  | cons b bs ih => simp [emitBytes, ih]
@[simp] theorem emitBytes_spiMode (bs : List Byte) (s : State) : (emitBytes bs s).spiMode = s.spiMode := by
  induction bs generalizing s with
  | nil => simp [emitBytes]
  | cons b bs ih => simp [emitBytes, ih]
@[simp] theorem emitBytes_seq (bs : List Byte) (s : State) : (emitBytes bs s).seq = s.seq := by
  induction bs generalizing s with
  | nil => simp [emitBytes]
  | cons b bs ih => simp [emitBytes, ih]
@[simp] theorem emitBytes_fault (bs : List Byte) (s : State) : (emitBytes bs s).fault = s.fault := by
  induction bs generalizing s with
  | nil => simp [emitBytes]
  | cons b bs ih => simp [emitBytes, ih]
@[simp] theorem emitBytes_trace (bs : List Byte) (s : State) : (emitBytes bs s).trace = s.trace ++ bs.map .tx := by
  induction bs generalizing s with
  | nil => simp [emitBytes]
  | cons b bs ih => simp [emitBytes, ih]
@[simp] theorem emitBytes_completions (bs : List Byte) (s : State) : (emitBytes bs s).completions = s.completions := by
  induction bs generalizing s with
  | nil => simp [emitBytes]
  | cons b bs ih => simp [emitBytes, ih]
@[simp] theorem emitBytes_env (bs : List Byte) (s : State) : (emitBytes bs s).env = s.env := by
  induction bs generalizing s with
  | nil => simp [emitBytes]
  | cons b bs ih => simp [emitBytes, ih]
@[simp] theorem emitBytes_drv (bs : List Byte) (s : State) : (emitBytes bs s).drv = s.drv := by
  induction bs generalizing s with
  | nil => simp [emitBytes]
  | cons b bs ih => simp [emitBytes, ih]
@[simp] theorem emitBytes_hostSeq (bs : List Byte) (s : State) : (emitBytes bs s).hostSeq = s.hostSeq := by
  induction bs generalizing s with
  | nil => simp [emitBytes]
  | cons b bs ih => simp [emitBytes, ih]
@[simp] theorem emitBytes_inbox (bs : List Byte) (s : State) : (emitBytes bs s).inbox = s.inbox := by
  induction bs generalizing s with
  | nil => simp [emitBytes]
  | cons b bs ih => simp [emitBytes, ih]
@[simp] theorem emitBytes_hostLog (bs : List Byte) (s : State) : (emitBytes bs s).hostLog = s.hostLog := by
  induction bs generalizing s with
  | nil => simp [emitBytes]
  | cons b bs ih => simp [emitBytes, ih]

/-! ### Fields after a completion, a failure, a log entry, the opening of the downstream view -/

@[simp] theorem complete_csN (c : BitVec 3) (r : Option (List Pixel)) (s : State) : (complete c r s).csN = s.csN := rfl
@[simp] theorem complete_rstN (c : BitVec 3) (r : Option (List Pixel)) (s : State) : (complete c r s).rstN = s.rstN := rfl
@[simp] theorem complete_speedHz (c : BitVec 3) (r : Option (List Pixel)) (s : State) : (complete c r s).speedHz = s.speedHz := rfl
@[simp] theorem complete_speedActive (c : BitVec 3) (r : Option (List Pixel)) (s : State) : (complete c r s).speedActive = s.speedActive := rfl
@[simp] theorem complete_spiMode (c : BitVec 3) (r : Option (List Pixel)) (s : State) : (complete c r s).spiMode = s.spiMode := rfl
@[simp] theorem complete_seq (c : BitVec 3) (r : Option (List Pixel)) (s : State) : (complete c r s).seq = s.seq := rfl
@[simp] theorem complete_fault (c : BitVec 3) (r : Option (List Pixel)) (s : State) : (complete c r s).fault = s.fault := rfl
@[simp] theorem complete_trace (c : BitVec 3) (r : Option (List Pixel)) (s : State) : (complete c r s).trace = s.trace := rfl
@[simp] theorem complete_completions (c : BitVec 3) (r : Option (List Pixel)) (s : State) : (complete c r s).completions = s.completions ++ [⟨c, r⟩] := rfl
@[simp] theorem complete_env (c : BitVec 3) (r : Option (List Pixel)) (s : State) : (complete c r s).env = s.env := rfl
@[simp] theorem complete_drv (c : BitVec 3) (r : Option (List Pixel)) (s : State) : (complete c r s).drv = s.drv := rfl
@[simp] theorem complete_hostSeq (c : BitVec 3) (r : Option (List Pixel)) (s : State) : (complete c r s).hostSeq = s.hostSeq := rfl
@[simp] theorem complete_inbox (c : BitVec 3) (r : Option (List Pixel)) (s : State) : (complete c r s).inbox = s.inbox := rfl
@[simp] theorem complete_hostLog (c : BitVec 3) (r : Option (List Pixel)) (s : State) : (complete c r s).hostLog = s.hostLog := rfl
@[simp] theorem complete_ctrl (c : BitVec 3) (r : Option (List Pixel)) (s : State) : (complete c r s).ctrl = s.ctrl := rfl
@[simp] theorem complete_free (c : BitVec 3) (r : Option (List Pixel)) (s : State) : (complete c r s).free = s.free := rfl

@[simp] theorem raise_csN (f : Failure) (s : State) : (raise f s).csN = s.csN := by simp [raise]
@[simp] theorem raise_rstN (f : Failure) (s : State) : (raise f s).rstN = s.rstN := by simp [raise]
@[simp] theorem raise_speedHz (f : Failure) (s : State) : (raise f s).speedHz = s.speedHz := by simp [raise]
@[simp] theorem raise_speedActive (f : Failure) (s : State) : (raise f s).speedActive = s.speedActive := by simp [raise]
@[simp] theorem raise_spiMode (f : Failure) (s : State) : (raise f s).spiMode = s.spiMode := by simp [raise]
@[simp] theorem raise_seq (f : Failure) (s : State) : (raise f s).seq = [] := by simp [raise]
@[simp] theorem raise_fault (f : Failure) (s : State) : (raise f s).fault = recordFault s.fault f.code := by simp [raise]
@[simp] theorem raise_trace (f : Failure) (s : State) : (raise f s).trace = s.trace ++ [.fail f.code] := by simp [raise]
@[simp] theorem raise_completions (f : Failure) (s : State) : (raise f s).completions = s.completions ++ [⟨f.code, none⟩] := by simp [raise]
@[simp] theorem raise_env (f : Failure) (s : State) : (raise f s).env = s.env := by simp [raise]
@[simp] theorem raise_drv (f : Failure) (s : State) : (raise f s).drv = s.drv := by simp [raise]
@[simp] theorem raise_hostSeq (f : Failure) (s : State) : (raise f s).hostSeq = s.hostSeq := by simp [raise]
@[simp] theorem raise_inbox (f : Failure) (s : State) : (raise f s).inbox = s.inbox := by simp [raise]
@[simp] theorem raise_hostLog (f : Failure) (s : State) : (raise f s).hostLog = s.hostLog := by simp [raise]
@[simp] theorem raise_ctrl (f : Failure) (s : State) : (raise f s).ctrl = s.ctrl := by simp [raise, emit, observe]
@[simp] theorem raise_free (f : Failure) (s : State) : (raise f s).free = s.free := by simp [raise, emit, observe]

@[simp] theorem failCommand_csN (f : Failure) (s : State) : (failCommand f s).csN = s.csN := by simp [failCommand, openDownstream]
@[simp] theorem failCommand_rstN (f : Failure) (s : State) : (failCommand f s).rstN = s.rstN := by simp [failCommand, openDownstream]
@[simp] theorem failCommand_speedHz (f : Failure) (s : State) : (failCommand f s).speedHz = s.speedHz := by simp [failCommand, openDownstream]
@[simp] theorem failCommand_speedActive (f : Failure) (s : State) : (failCommand f s).speedActive = s.speedActive := by simp [failCommand, openDownstream]
@[simp] theorem failCommand_spiMode (f : Failure) (s : State) : (failCommand f s).spiMode = s.spiMode := by simp [failCommand, openDownstream]
@[simp] theorem failCommand_seq (f : Failure) (s : State) : (failCommand f s).seq = [] := by simp [failCommand, openDownstream]
@[simp] theorem failCommand_fault (f : Failure) (s : State) : (failCommand f s).fault = recordFault s.fault f.code := by simp [failCommand, openDownstream]
@[simp] theorem failCommand_trace (f : Failure) (s : State) : (failCommand f s).trace = s.trace ++ [.fail f.code] := by simp [failCommand, openDownstream]
@[simp] theorem failCommand_completions (f : Failure) (s : State) : (failCommand f s).completions = s.completions ++ [⟨f.code, none⟩] := by simp [failCommand, openDownstream]
@[simp] theorem failCommand_env (f : Failure) (s : State) : (failCommand f s).env = s.env := by simp [failCommand, openDownstream]
@[simp] theorem failCommand_drv (f : Failure) (s : State) : (failCommand f s).drv = s.drv := by simp [failCommand, openDownstream]
@[simp] theorem failCommand_hostSeq (f : Failure) (s : State) : (failCommand f s).hostSeq = s.hostSeq := by simp [failCommand, openDownstream]
@[simp] theorem failCommand_inbox (f : Failure) (s : State) : (failCommand f s).inbox = s.inbox := by simp [failCommand, openDownstream]
@[simp] theorem failCommand_hostLog (f : Failure) (s : State) : (failCommand f s).hostLog = s.hostLog := by simp [failCommand, openDownstream]
@[simp] theorem failCommand_ctrl (f : Failure) (s : State) : (failCommand f s).ctrl = openController s.free s.ctrl.rx := by simp [failCommand, openDownstream]
@[simp] theorem failCommand_free (f : Failure) (s : State) : (failCommand f s).free = s.free + 1 := by simp [failCommand, openDownstream]

@[simp] theorem logHost_csN (e : HostEvent) (s : State) : (logHost e s).csN = s.csN := rfl
@[simp] theorem logHost_rstN (e : HostEvent) (s : State) : (logHost e s).rstN = s.rstN := rfl
@[simp] theorem logHost_speedHz (e : HostEvent) (s : State) : (logHost e s).speedHz = s.speedHz := rfl
@[simp] theorem logHost_speedActive (e : HostEvent) (s : State) : (logHost e s).speedActive = s.speedActive := rfl
@[simp] theorem logHost_spiMode (e : HostEvent) (s : State) : (logHost e s).spiMode = s.spiMode := rfl
@[simp] theorem logHost_seq (e : HostEvent) (s : State) : (logHost e s).seq = s.seq := rfl
@[simp] theorem logHost_fault (e : HostEvent) (s : State) : (logHost e s).fault = s.fault := rfl
@[simp] theorem logHost_trace (e : HostEvent) (s : State) : (logHost e s).trace = s.trace := rfl
@[simp] theorem logHost_completions (e : HostEvent) (s : State) : (logHost e s).completions = s.completions := rfl
@[simp] theorem logHost_env (e : HostEvent) (s : State) : (logHost e s).env = s.env := rfl
@[simp] theorem logHost_drv (e : HostEvent) (s : State) : (logHost e s).drv = s.drv := rfl
@[simp] theorem logHost_hostSeq (e : HostEvent) (s : State) : (logHost e s).hostSeq = s.hostSeq := rfl
@[simp] theorem logHost_inbox (e : HostEvent) (s : State) : (logHost e s).inbox = s.inbox := rfl
@[simp] theorem logHost_hostLog (e : HostEvent) (s : State) : (logHost e s).hostLog = s.hostLog ++ [e] := rfl
@[simp] theorem logHost_ctrl (e : HostEvent) (s : State) : (logHost e s).ctrl = s.ctrl := rfl
@[simp] theorem logHost_free (e : HostEvent) (s : State) : (logHost e s).free = s.free := rfl

@[simp] theorem openDownstream_csN (s : State) : (openDownstream s).csN = s.csN := rfl
@[simp] theorem openDownstream_rstN (s : State) : (openDownstream s).rstN = s.rstN := rfl
@[simp] theorem openDownstream_speedHz (s : State) : (openDownstream s).speedHz = s.speedHz := rfl
@[simp] theorem openDownstream_speedActive (s : State) : (openDownstream s).speedActive = s.speedActive := rfl
@[simp] theorem openDownstream_spiMode (s : State) : (openDownstream s).spiMode = s.spiMode := rfl
@[simp] theorem openDownstream_seq (s : State) : (openDownstream s).seq = s.seq := rfl
@[simp] theorem openDownstream_fault (s : State) : (openDownstream s).fault = s.fault := rfl
@[simp] theorem openDownstream_trace (s : State) : (openDownstream s).trace = s.trace := rfl
@[simp] theorem openDownstream_completions (s : State) : (openDownstream s).completions = s.completions := rfl
@[simp] theorem openDownstream_env (s : State) : (openDownstream s).env = s.env := rfl
@[simp] theorem openDownstream_drv (s : State) : (openDownstream s).drv = s.drv := rfl
@[simp] theorem openDownstream_hostSeq (s : State) : (openDownstream s).hostSeq = s.hostSeq := rfl
@[simp] theorem openDownstream_inbox (s : State) : (openDownstream s).inbox = s.inbox := rfl
@[simp] theorem openDownstream_hostLog (s : State) : (openDownstream s).hostLog = s.hostLog := rfl
@[simp] theorem openDownstream_ctrl (s : State) : (openDownstream s).ctrl = openController s.free s.ctrl.rx := rfl
@[simp] theorem openDownstream_free (s : State) : (openDownstream s).free = s.free + 1 := rfl

end Sys2Proof.Machine
end

