-- ==== Sys2Proof/Laws/Downstream.lean ====
section
/-! SUPPORT. What each frame does at the controller: the fields of `ctrl` after it (20_memory.md R34 to R36). -/

namespace Sys2Proof.Machine

/-! ### From the bytes of a frame to its effect -/

theorem receiveFrame_index (a : U16) (s : State) : receiveFrame (indexFrameBytes a) s = selectIndex a s := by
  rw [receiveFrame_ok (decodeFrame_index a)]
  unfold indexFrame
  split
  · rename_i h
    subst h
    rfl
  · rfl

theorem receiveFrame_data (v : U16) (s : State) : receiveFrame (dataFrameBytes v) s = receiveData v s := by
  rw [receiveFrame_ok (decodeFrame_data v)]
  rfl

theorem receiveFrame_stream (ps : List Pixel) (s : State) :
    receiveFrame (streamFrameBytes ps) s = receiveStream ps s := by
  match ps with
  | [p] => exact receiveFrame_data p s
  | [] => rfl
  | _ :: _ :: _ =>
    rw [receiveFrame_ok (decodeFrame_stream (by simp))]
    rfl

/-! ### The effects -/

theorem selectIndex_ctrl (a : U16) (s : State) : (selectIndex a s).ctrl =
    { s.ctrl with sel := a, wptr := if a = 0x0022 then Config.freeWptr s.free else s.ctrl.wptr } := by
  unfold selectIndex openWptr
  split <;> simp_all

theorem selectIndex_free (a : U16) (s : State) :
    (selectIndex a s).free = if a = 0x0022 then s.free + 1 else s.free := by
  unfold selectIndex openWptr
  split <;> simp_all

theorem receiveData_register (v : U16) {s : State} (h : s.ctrl.sel ≠ 0x0022) : (receiveData v s).ctrl =
    { s.ctrl with regs := Memory.write s.ctrl.regs s.ctrl.sel.toNat v, wptr := Config.freeWptr s.free } := by
  unfold receiveData
  rw [if_neg h]
  rfl

theorem receiveData_pixel (v : U16) {s : State} (h : s.ctrl.sel = 0x0022) : (receiveData v s).ctrl =
    { s.ctrl with
      gram := Memory.write s.ctrl.gram s.ctrl.wptr v
      wptr := Config.wptrAdvance s.free s.ctrl.regs s.ctrl.wptr } := by
  unfold receiveData
  rw [if_pos h]
  rfl

/-- Pixels in order: GRAM takes them where `WPTR` passes, and nothing else is written. -/
theorem writePixels_ctrl (ps : List Pixel) (s : State) :
    (writePixels ps s).ctrl.gram =
        Memory.writeAll s.ctrl.gram ((pixelTargets s.ctrl.regs ps.length s.free s.ctrl.wptr).zip ps) ∧
      (writePixels ps s).ctrl.regs = s.ctrl.regs ∧ (writePixels ps s).ctrl.sel = s.ctrl.sel := by
  induction ps generalizing s with
  | nil => simp [writePixels, pixelTargets, Memory.writeAll]
  | cons p ps ih =>
    obtain ⟨h1, h2, h3⟩ := ih (writePixel p s)
    simp only [writePixels, h1, h2, h3]
    simp [writePixel, pixelTargets, Memory.writeAll]

theorem receiveStream_gram {ps : List Pixel} {s : State} (h : s.ctrl.sel = 0x0022) (hn : ps ≠ []) :
    receiveStream ps s = writePixels ps s := by
  match ps with
  | [] => exact absurd rfl hn
  | [p] => simp [receiveStream, receiveData, h, writePixels]
  | _ :: _ :: _ => simp [receiveStream, h]

end Sys2Proof.Machine
end

