-- ==== Sys2Proof/Laws/Memory.lean ====
section
/-! SUPPORT. The laws of the memory of 16-bit cells: read after write, a write leaves every other number alone, and
every operation keeps the canonical form. -/

namespace Sys2Proof.Machine

@[simp] theorem Memory.read_nil (a : Nat) : Memory.read [] a = Memory.unlisted := rfl

/-! ### Entries -/

theorem Memory.mem_insert {m : Memory} {a : Nat} {v : BitVec 16} {e : Nat × BitVec 16} :
    e ∈ Memory.insert m a v ↔ e = (a, v) ∨ e ∈ m := by
  induction m with
  | nil => simp [Memory.insert]
  | cons d m ih =>
    unfold Memory.insert
    split
    · simp
    · simp [ih, or_left_comm]

/-- The entries after a write: those of the other numbers, and the one written unless it is what an unlisted number
reads as. -/
theorem Memory.mem_write {m : Memory} {a : Nat} {v : BitVec 16} {e : Nat × BitVec 16} :
    e ∈ Memory.write m a v ↔ (e = (a, v) ∧ v ≠ Memory.unlisted) ∨ (e ∈ m ∧ e.1 ≠ a) := by
  unfold Memory.write
  split <;> simp_all [Memory.mem_insert]

theorem Memory.mem_writeAll {m : Memory} {ws : List (Nat × BitVec 16)} {e : Nat × BitVec 16}
    (h : e ∈ Memory.writeAll m ws) : e ∈ ws ∨ e ∈ m := by
  induction ws generalizing m with
  | nil => exact .inr h
  | cons w ws ih =>
    rcases ih h with h | h
    · exact .inl (List.mem_cons_of_mem _ h)
    · rcases Memory.mem_write.mp h with h | h
      · exact .inl (by simp [h.1])
      · exact .inr h.1

/-! ### Reading -/

theorem Memory.read_insert_other (m : Memory) {a b : Nat} (v : BitVec 16) (h : b ≠ a) :
    Memory.read (Memory.insert m a v) b = Memory.read m b := by
  induction m with
  | nil => simp [Memory.insert, Memory.read, Ne.symm h]
  | cons d m ih =>
    unfold Memory.insert
    split
    · simp [Memory.read, Ne.symm h]
    · simp [Memory.read, ih]

theorem Memory.read_insert_same {m : Memory} {a : Nat} (v : BitVec 16) (h : ∀ e ∈ m, e.1 ≠ a) :
    Memory.read (Memory.insert m a v) a = v := by
  induction m with
  | nil => simp [Memory.insert, Memory.read]
  | cons d m ih =>
    obtain ⟨hd, hm⟩ := List.forall_mem_cons.mp h
    unfold Memory.insert
    split
    · simp [Memory.read]
    · simp [Memory.read, hd, ih hm]

theorem Memory.read_unlisted {m : Memory} {a : Nat} (h : ∀ e ∈ m, e.1 ≠ a) : Memory.read m a = Memory.unlisted := by
  induction m with
  | nil => rfl
  | cons d m ih =>
    obtain ⟨hd, hm⟩ := List.forall_mem_cons.mp h
    simp [Memory.read, hd, ih hm]

theorem Memory.read_others (m : Memory) {a b : Nat} (h : b ≠ a) :
    Memory.read (m.filter fun e => decide (e.1 ≠ a)) b = Memory.read m b := by
  induction m with
  | nil => rfl
  | cons d m ih =>
    by_cases hd : d.1 = a
    · rw [List.filter_cons_of_neg (by simpa using hd), ih]
      simp [Memory.read, hd, Ne.symm h]
    · rw [List.filter_cons_of_pos (by simpa using hd)]
      simp only [Memory.read, ih]

@[simp] theorem Memory.read_write_same (m : Memory) (a : Nat) (v : BitVec 16) :
    Memory.read (Memory.write m a v) a = v := by
  have hm : ∀ e ∈ m.filter fun e => decide (e.1 ≠ a), e.1 ≠ a := fun e he => by
    simpa using (List.mem_filter.mp he).2
  unfold Memory.write
  split
  · rename_i hv
    rw [hv]
    exact Memory.read_unlisted hm
  · exact Memory.read_insert_same v hm

theorem Memory.read_write_other (m : Memory) {a b : Nat} (v : BitVec 16) (h : b ≠ a) :
    Memory.read (Memory.write m a v) b = Memory.read m b := by
  unfold Memory.write
  split
  · exact Memory.read_others m h
  · exact (Memory.read_insert_other _ v h).trans (Memory.read_others m h)

/-- Writes outside `b` leave `b` alone. -/
theorem Memory.read_writeAll_other (m : Memory) (ws : List (Nat × BitVec 16)) {b : Nat}
    (h : b ∉ ws.map Prod.fst) : Memory.read (Memory.writeAll m ws) b = Memory.read m b := by
  induction ws generalizing m with
  | nil => rfl
  | cons w ws ih =>
    simp only [List.map_cons, List.mem_cons, not_or] at h
    exact (ih _ h.2).trans (Memory.read_write_other m w.2 h.1)

/-! ### The canonical form -/

theorem Memory.wf_nil : Memory.wf [] := ⟨List.Pairwise.nil, by simp⟩

theorem Memory.insert_rising {m : Memory} {a : Nat} (v : BitVec 16) (hm : List.Pairwise (fun a b => a.1 < b.1) m)
    (h : ∀ e ∈ m, e.1 ≠ a) : List.Pairwise (fun a b => a.1 < b.1) (Memory.insert m a v) := by
  induction m with
  | nil => simp [Memory.insert]
  | cons d m ih =>
    obtain ⟨hd, ht⟩ := List.pairwise_cons.mp hm
    obtain ⟨hda, hta⟩ := List.forall_mem_cons.mp h
    unfold Memory.insert
    split
    · rename_i hlt
      refine List.pairwise_cons.mpr ⟨fun e he => ?_, hm⟩
      rcases List.mem_cons.mp he with rfl | he
      · exact hlt
      · exact Nat.lt_trans hlt (hd e he)
    · rename_i hlt
      refine List.pairwise_cons.mpr ⟨fun e he => ?_, ih ht hta⟩
      rcases Memory.mem_insert.mp he with rfl | he
      · exact Nat.lt_of_le_of_ne (Nat.le_of_not_lt hlt) hda
      · exact hd e he

theorem Memory.write_wf {m : Memory} (h : Memory.wf m) (a : Nat) (v : BitVec 16) :
    Memory.wf (Memory.write m a v) := by
  refine ⟨?_, fun e he => ?_⟩
  · have hf := h.1.filter fun e => decide (e.1 ≠ a)
    unfold Memory.write
    split
    · exact hf
    · exact Memory.insert_rising v hf fun e he => by simpa using (List.mem_filter.mp he).2
  · rcases Memory.mem_write.mp he with ⟨rfl, hv⟩ | he
    · exact hv
    · exact h.2 e he.1

theorem Memory.writeAll_wf {m : Memory} (h : Memory.wf m) (ws : List (Nat × BitVec 16)) :
    Memory.wf (Memory.writeAll m ws) := by
  induction ws generalizing m with
  | nil => exact h
  | cons w ws ih => exact ih (Memory.write_wf h _ _)

end Sys2Proof.Machine
end

