-- ==== Sys2Proof/Laws/Ops.lean ====
section
/-! SUPPORT. What the shared operations can do: the environment that answers `ok`, a bracket, a whole command, and
the sequencer's step. -/

namespace Sys2Proof.Machine

/-! ### The environment that answers `ok` -/

theorem Env.allOk_iff (e : Env) :
    e.allOk = true ↔ (∀ a ∈ e.gpio, a = .ok) ∧ (∀ a ∈ e.xfer, a = .ok) ∧ (∀ a ∈ e.busOpen, a = .ok) := by
  simp [Env.allOk, and_assoc]

theorem askGpio_ok {e : Env} (h : e.allOk = true) : ∃ e', askGpio e = (.ok, e') ∧ e'.allOk = true := by
  obtain ⟨g, x, o⟩ := e
  rw [Env.allOk_iff] at h
  cases g with
  | nil => exact ⟨_, rfl, (Env.allOk_iff _).mpr h⟩
  | cons a g =>
    obtain ⟨hg, hx, ho⟩ := h
    have ha : a = .ok := hg a (by simp)
    subst ha
    exact ⟨_, rfl, (Env.allOk_iff _).mpr ⟨fun b hb => hg b (List.mem_cons_of_mem _ hb), hx, ho⟩⟩

theorem askXfer_ok {e : Env} (h : e.allOk = true) : ∃ e', askXfer e = (.ok, e') ∧ e'.allOk = true := by
  obtain ⟨g, x, o⟩ := e
  rw [Env.allOk_iff] at h
  cases x with
  | nil => exact ⟨_, rfl, (Env.allOk_iff _).mpr h⟩
  | cons a x =>
    obtain ⟨hg, hx, ho⟩ := h
    have ha : a = .ok := hx a (by simp)
    subst ha
    exact ⟨_, rfl, (Env.allOk_iff _).mpr ⟨hg, fun b hb => hx b (List.mem_cons_of_mem _ hb), ho⟩⟩

theorem askOpen_ok {e : Env} (h : e.allOk = true) : ∃ e', askOpen e = (.ok, e') ∧ e'.allOk = true := by
  obtain ⟨g, x, o⟩ := e
  rw [Env.allOk_iff] at h
  cases o with
  | nil => exact ⟨_, rfl, (Env.allOk_iff _).mpr h⟩
  | cons a o =>
    obtain ⟨hg, hx, ho⟩ := h
    have ha : a = .ok := ho a (by simp)
    subst ha
    exact ⟨_, rfl, (Env.allOk_iff _).mpr ⟨hg, hx, fun b hb => ho b (List.mem_cons_of_mem _ hb)⟩⟩

theorem driveCs_ok (l : Level) {s : State} (h : s.env.allOk = true) :
    ∃ e, e.allOk = true ∧ driveCs l s = .done (emit (.cs l) ((s.setCsN l).setEnv e)) := by
  obtain ⟨e, he, hok⟩ := askGpio_ok h
  exact ⟨e, hok, by simp [driveCs, he]⟩

theorem driveRst_ok (l : Level) {s : State} (h : s.env.allOk = true) :
    ∃ e, e.allOk = true ∧ driveRst l s = .done (emit (.rst l) ((s.setRstN l).setEnv e)) := by
  obtain ⟨e, he, hok⟩ := askGpio_ok h
  exact ⟨e, hok, by simp [driveRst, he]⟩

theorem txFrame_ok (bytes : List Byte) {s : State} (h : s.env.allOk = true) :
    ∃ e, e.allOk = true ∧ txFrame bytes s = .done (emitBytes bytes (s.setEnv e)) := by
  obtain ⟨e, he, hok⟩ := askXfer_ok h
  exact ⟨e, hok, by simp [txFrame, he]⟩

/-! ### What the controller has received -/

theorem emit_csLow_ctrl (s : State) : (emit (.cs .low) s).ctrl = { s.ctrl with rx := some [] } := rfl

theorem emit_csLow_free (s : State) : (emit (.cs .low) s).free = s.free := rfl

theorem emitBytes_ctrl (bs : List Byte) (s : State) :
    (emitBytes bs s).ctrl = { s.ctrl with rx := s.ctrl.rx.map (· ++ bs) } := by
  induction bs generalizing s with
  | nil => simp [emitBytes]
  | cons b bs ih =>
    rw [emitBytes, ih, emit_tx]
    cases s.ctrl.rx <;> simp

theorem emitBytes_free (bs : List Byte) (s : State) : (emitBytes bs s).free = s.free := by
  induction bs generalizing s with
  | nil => rfl
  | cons b bs ih => exact ih _

/-- At the end of a bracket the controller takes the frame received. -/
theorem emit_csHigh {s : State} {f : List Byte} (h : s.ctrl.rx = some f) :
    emit (.cs .high) s =
      receiveFrame f ((s.pushTrace (.cs .high)).setCtrl { s.ctrl with rx := none }) := by
  simp [emit, observe, h]

/-! ### A bracket -/

/-- What one successful bracket leaves: its events, chip-select inactive, and the controller with the frame taken. -/
structure Bracketed (f : List Byte) (s t : State) : Prop where
  trace : t.trace = s.trace ++ bracketEvents f
  csN : t.csN = .high
  rstN : t.rstN = s.rstN
  speed : SpeedSame s t
  fault : t.fault = s.fault
  completions : t.completions = s.completions
  host : HostSame s t
  env : t.env.allOk = true
  seen : ∃ u : State, u.ctrl = { s.ctrl with rx := none } ∧ u.free = s.free ∧
    t.ctrl = (receiveFrame f u).ctrl ∧ t.free = (receiveFrame f u).free

theorem performAll_bracket (f : List Byte) (rest : List MicroOp) {s : State} (h : s.env.allOk = true) :
    ∃ t, Bracketed f s t ∧
      performAll (bracket f ++ rest) s = if rest = [] then advance [] t else performAll rest t := by
  obtain ⟨e1, h1, hd1⟩ := driveCs_ok .low h
  generalize ha : emit (.cs .low) ((s.setCsN .low).setEnv e1) = a at hd1
  have hea : a.env.allOk = true := by simpa [← ha] using h1
  obtain ⟨e2, h2, hd2⟩ := txFrame_ok f hea
  generalize hb : emitBytes f (a.setEnv e2) = b at hd2
  have heb : b.env.allOk = true := by simpa [← hb] using h2
  obtain ⟨e3, h3, hd3⟩ := driveCs_ok .high heb
  refine ⟨emit (.cs .high) ((b.setCsN .high).setEnv e3), ?_, by simp [bracket, performAll, perform, hd1, hd2, hd3]⟩
  have hc : b.ctrl = { s.ctrl with rx := some f } := by
    simp [← hb, ← ha, emitBytes_ctrl, emit_csLow_ctrl]
  have hfree : b.free = s.free := by simp [← hb, ← ha, emitBytes_free, emit_csLow_free]
  constructor
  · simp [← hb, ← ha, bracketEvents]
  · simp
  · simp [← hb, ← ha]
  · simp [← hb, ← ha, SpeedSame]
  · simp [← hb, ← ha]
  · simp [← hb, ← ha]
  · simp [← hb, ← ha, HostSame]
  · simpa using h3
  · rw [emit_csHigh (f := f) (by simp [hc])]
    exact ⟨_, by simp [hc], by simp [hfree], rfl, rfl⟩

/-! ### The end of a command -/

theorem advance_eq (rest : List MicroOp) (s : State) :
    advance rest s = if rest = [] then complete codeNone none (s.setSeq []) else s.setSeq rest := by
  cases rest <;> simp [advance]

/-! ### Acceptance -/

theorem runCommand_accepts {imm : State → State} {res : Option (List Pixel)} {u : MicroOp} {rest : List MicroOp}
    {s : State} (hs : s.seq = []) (hf : s.fault = 0) :
    runCommand true imm res (u :: rest) s = performAll (u :: rest) ((imm s).setSeq (u :: rest)) := by
  simp [runCommand, accept, hs, hf]

theorem runCommand_immediate {imm : State → State} {res : Option (List Pixel)} {s : State} (hs : s.seq = [])
    (hf : s.fault = 0) :
    runCommand true imm res [] s = complete codeNone res ((imm s).setSeq []) := by
  simp [runCommand, accept, hs, hf, performAll]

theorem runCommand_refuses {wf : Bool} {imm : State → State} {res : Option (List Pixel)} {exp : List MicroOp}
    {s : State} (hs : s.seq = []) (hf : s.fault ≠ 0) :
    runCommand wf imm res exp s = complete codeFaulted none s := by
  unfold runCommand accept
  rw [if_pos hs, if_pos hf]
  simp [hs, performAll]

theorem runCommand_illegal {imm : State → State} {res : Option (List Pixel)} {exp : List MicroOp}
    {s : State} (hs : s.seq = []) (hf : s.fault = 0) :
    runCommand false imm res exp s = raise .illegalCommand s := by
  simp [runCommand, accept, hs, hf, performAll]

theorem runCommand_notReady {wf : Bool} {imm : State → State} {res : Option (List Pixel)} {exp : List MicroOp}
    {s : State} (hs : s.seq ≠ []) : runCommand wf imm res exp s = s := by
  simp [runCommand, hs]

/-! ### The sequencer's step -/

/-- What one micro-operation can do, each outcome with its answer from the environment (R20 to R23). -/
theorem perform_cases (u : MicroOp) (s : State) :
    (∃ l e, u = .driveCs l ∧ perform u s = .done (emit (.cs l) ((s.setCsN l).setEnv e))) ∨
    (∃ l e, u = .driveRst l ∧ perform u s = .done (emit (.rst l) ((s.setRstN l).setEnv e))) ∨
    (∃ f e, u = .txFrame f ∧ perform u s = .done (emitBytes f (s.setEnv e))) ∨
    (∃ ms, u = .wait ms ∧ perform u s = .done (emit (.wait ms) s)) ∨
    (∃ g e, perform u s = .failed g (s.setEnv e) ∧ g ≠ .illegalCommand) ∨
    (∃ f k e, u = .txFrame f ∧
      perform u s = .failed (.busTransfer k) (emitBytes (f.take k) (s.setEnv e))) ∨
    perform u s = .hung := by
  cases u with
  | driveCs l =>
    rcases h : askGpio s.env with ⟨a, e⟩
    cases a with
    | ok => exact .inl ⟨l, e, rfl, by simp [perform, driveCs, h]⟩
    | fail => exact .inr (.inr (.inr (.inr (.inl ⟨_, e, by simp [perform, driveCs, h]; rfl, by simp⟩))))
    | never => exact .inr (.inr (.inr (.inr (.inr (.inr (by simp [perform, driveCs, h]))))))
  | driveRst l =>
    rcases h : askGpio s.env with ⟨a, e⟩
    cases a with
    | ok => exact .inr (.inl ⟨l, e, rfl, by simp [perform, driveRst, h]⟩)
    | fail => exact .inr (.inr (.inr (.inr (.inl ⟨_, e, by simp [perform, driveRst, h]; rfl, by simp⟩))))
    | never => exact .inr (.inr (.inr (.inr (.inr (.inr (by simp [perform, driveRst, h]))))))
  | txFrame f =>
    rcases h : askXfer s.env with ⟨a, e⟩
    cases a with
    | ok => exact .inr (.inr (.inl ⟨f, e, rfl, by simp [perform, txFrame, h]⟩))
    | openFail => exact .inr (.inr (.inr (.inr (.inl ⟨_, e, by simp [perform, txFrame, h]; rfl, by simp⟩))))
    | xferFail k => exact .inr (.inr (.inr (.inr (.inr (.inl ⟨f, k, e, rfl, by simp [perform, txFrame, h]⟩)))))
    | never => exact .inr (.inr (.inr (.inr (.inr (.inr (by simp [perform, txFrame, h]))))))
  | wait ms => exact .inr (.inr (.inr (.inl ⟨ms, rfl, rfl⟩)))

theorem microStep_idle {s : State} (h : s.seq = []) : microStep s = s := by
  unfold microStep
  rw [h]

theorem microSteps_idle {s : State} (h : s.seq = []) (n : Nat) : microSteps n s = s := by
  induction n with
  | zero => rfl
  | succ n ih => rw [microSteps, microStep_idle h, ih]

/-- With a micro-operation at the head of `SEQ`, the machine's step is the sequencer's (R24). -/
theorem step_microStep {s : State} {u : MicroOp} {rest : List MicroOp} (h : s.seq = u :: rest) :
    step s = .next (microStep s) := by
  unfold step runNext
  rw [h]

/-! ### Block reset -/

/-- What the acquisitions of block reset can do (R151): all are answered, one fails, or one is never answered. -/
theorem acquireAll_cases (rs : List Resource) (s : State) :
    (∃ e, acquireAll rs s = complete codeNone none ((s.setEnv e).setSpeedActive s.speedHz)) ∨
    (∃ e r, r ∈ rs ∧ acquireAll rs s = resetFails r.code (s.setEnv e)) ∨
    (∃ e r rest, (askResource r e).1 = .never ∧
      acquireAll rs s = (s.setEnv e).setHostSeq (.acquire (r :: rest) :: s.hostSeq)) := by
  induction rs generalizing s with
  | nil => exact .inl ⟨s.env, rfl⟩
  | cons r rs ih =>
    rcases h : askResource r s.env with ⟨a, e⟩
    cases a with
    | ok =>
      simp only [acquireAll, h]
      rcases ih (s.setEnv e) with ⟨e', h'⟩ | ⟨e', q, hq, h'⟩ | ⟨e', q, rest, hq, h'⟩
      · exact .inl ⟨e', h'⟩
      · exact .inr (.inl ⟨e', q, List.mem_cons_of_mem _ hq, h'⟩)
      · exact .inr (.inr ⟨e', q, rest, hq, h'⟩)
    | fail => exact .inr (.inl ⟨e, r, by simp, by simp [acquireAll, h]⟩)
    | never =>
      refine .inr (.inr ⟨s.env, r, rs, by rw [h], ?_⟩)
      simp only [acquireAll, h]
      rfl

/-! ### What the machine's step takes next -/

theorem step_hostSeq {s : State} {h : HostStep} {rest : List HostStep} (hs : s.seq = []) (hh : s.hostSeq = h :: rest) :
    step s = runHostStep h (s.setHostSeq rest) := by
  unfold step runNext
  rw [hs, hh]

theorem step_packet {s : State} {p : Packet} {rest : List Stimulus} (hs : s.seq = []) (hh : s.hostSeq = [])
    (hi : s.inbox = .packet p :: rest) : step s = runPacket p (s.setInbox rest) := by
  unfold step runNext
  rw [hs, hh, hi]

theorem step_hostOp {s : State} {op : HostOp} {rest : List Stimulus} (hs : s.seq = []) (hh : s.hostSeq = [])
    (hi : s.inbox = .host op :: rest) :
    step s = .next ((s.setInbox rest).setHostSeq (opSteps Config.hostParams s.drv op)) := by
  unfold step runNext
  rw [hs, hh, hi]

end Sys2Proof.Machine
end

