-- ==== Sys2Proof/Laws/PerInstr.lean ====
section
/-! SUPPORT. For each instruction, the number of bytes that carry it (30_encoding.md R51, R53, R55, R58). -/

namespace Sys2Proof.Laws.EncodeLength

/-- Whether bytes are a command, and how many they are. -/
def shape : Packet → Bool × Nat
  | .command bytes => (true, bytes.length)
  | .frame bytes => (false, bytes.length)

/-- The number of bytes of an instruction: a command word has five, and a payload two or three an element; a frame has a
start byte and two bytes for each 16-bit value. -/
def size : Instr → Nat
  | .wridx _ | .wrdat _ | .wrreg _ _ | .rstp | .setspd _ => 5
  | .strm w h _ => 5 + 2 * (w.toNat * h.toNat)
  | .pack w h _ => 5 + 3 * (w.toNat * h.toNat)
  | .idxframe _ | .datframe _ | .gramsel => 3
  | .pixframe ps => 1 + 2 * ps.length

/-- The encoding of an instruction whose payload has its length has the kind and the size of the instruction. -/
def Statement (i : Instr) : Prop := i.payloadOk = true → shape (encode i) = (i.isCommand, size i)

theorem wridx (addr : U16) : Statement (.wridx addr) := fun _ => rfl
theorem wrdat (value : U16) : Statement (.wrdat value) := fun _ => rfl
theorem wrreg (addr value : U16) : Statement (.wrreg addr value) := fun _ => rfl
theorem strm (w h : U16) (buf : List Pixel) : Statement (.strm w h buf) := fun hp => by
  simp only [Instr.payloadOk, decide_eq_true_eq] at hp
  simp [encode, shape, size, Instr.isCommand, wordBytes, pixelBytes_length, hp]
  omega
theorem rstp : Statement .rstp := fun _ => rfl
theorem pack (w h : U16) (inbuf : List Rgb) : Statement (.pack w h inbuf) := fun hp => by
  simp only [Instr.payloadOk, decide_eq_true_eq] at hp
  simp [encode, shape, size, Instr.isCommand, wordBytes, rgbBytes_length, hp]
  omega
theorem setspd (hz : U32) : Statement (.setspd hz) := fun _ => rfl
theorem idxframe (a : U16) : Statement (.idxframe a) := fun _ => rfl
theorem datframe (v : U16) : Statement (.datframe v) := fun _ => rfl
theorem gramsel : Statement .gramsel := fun _ => rfl
theorem pixframe (ps : List Pixel) : Statement (.pixframe ps) := fun _ => by
  simp [encode, shape, size, Instr.isCommand, streamFrameBytes, pixelBytes_length]
  omega

end Sys2Proof.Laws.EncodeLength
end

