-- ==== Sys2Proof/Tests/Slice0.lean ====
section
/-! SUPPORT. Tests on fixed values. The expected results are the vectors S, V and P of spec/95_test_vectors.md or are
worked out by hand from the rule named; the last part shows, for each statement with hypotheses, values that meet
them. -/

open Sys2Proof Sys2Proof.Machine

namespace Sys2Proof.Tests

/-! ### Helpers -/

/-- The state after reset with `SPEED_RESET` = 1000. -/
def s0 : State := State.resetWith 1000

/-- `s0` with the environment's answers. -/
def answering (gpio : List PinAnswer) (xfer : List XferAnswer) (busOpen : List PinAnswer) : State :=
  s0.setEnv { gpio := gpio, xfer := xfer, busOpen := busOpen }

/-- `s0` with a register selected at the controller. -/
def selecting (a : U16) : State := s0.setCtrl { s0.ctrl with sel := a }

/-- `s0` with something presented. -/
def presenting (x : Stimulus) : State := s0.setInbox [x]

/-- `s0` with a failure stored. -/
def faulted : State := s0.setFault 2

/-- The next state of an outcome. -/
def nextOf (s : State) : Host.Outcome State Fault Refusal → State
  | .next t => t
  | .fault _ => s
  | .refused _ => s

/-- One instruction. -/
def after (i : Instr) (s : State) : State := nextOf s (exec i s)

/-- One step. -/
def stepped (s : State) : State := nextOf s (step s)

/-- The code of the last completion. -/
def code (s : State) : Option (BitVec 3) := s.completions.getLast?.map Completion.code

/-! ### WellFormed refuses each ill-formed term -/

theorem test_wf_strm_length : Instr.wf (.strm 2 1 [0xF800]) = false := by decide
theorem test_wf_strm_ok : Instr.wf (.strm 2 1 [0xF800, 0x001F]) = true := by decide
theorem test_wf_pack_length : Instr.wf (.pack 1 1 []) = false := by decide
theorem test_wf_idxframe_gram : Instr.wf (.idxframe 0x0022) = false := by decide
theorem test_wf_pixframe_one : Instr.wf (.pixframe [0x0821]) = false := by decide

/-! ### Decoding, from words written out by the tables of R51, R53, R55, R56 -/

theorem test_decode_wridx : decode (.command [0x01, 0x00, 0x03, 0x00, 0x00]) = .ok (.wridx 0x0003) := by decide
theorem test_decode_wrdat : decode (.command [0x02, 0x10, 0x30, 0x00, 0x00]) = .ok (.wrdat 0x1030) := by decide
theorem test_decode_wrreg : decode (.command [0x03, 0x12, 0x34, 0xAB, 0xCD]) = .ok (.wrreg 0x1234 0xABCD) := by decide
theorem test_decode_strm :
    decode (.command [0x04, 0x00, 0x02, 0x00, 0x01, 0xF8, 0x00, 0x00, 0x1F]) = .ok (.strm 2 1 [0xF800, 0x001F]) := by
  decide
theorem test_decode_rstp : decode (.command [0x05, 0x00, 0x00, 0x00, 0x00]) = .ok .rstp := by decide
theorem test_decode_pack :
    decode (.command [0x06, 0x00, 0x01, 0x00, 0x01, 0x12, 0x34, 0x56]) = .ok (.pack 1 1 [0x123456]) := by decide
theorem test_decode_setspd : decode (.command [0x07, 0x00, 0x7A, 0x12, 0x00]) = .ok (.setspd 8000000) := by decide
theorem test_decode_idxframe : decode (.frame [0x70, 0x12, 0x34]) = .ok (.idxframe 0x1234) := by decide
theorem test_decode_datframe : decode (.frame [0x72, 0xAB, 0xCD]) = .ok (.datframe 0xABCD) := by decide
theorem test_decode_gramsel : decode (.frame [0x70, 0x00, 0x22]) = .ok .gramsel := by decide
theorem test_decode_pixframe :
    decode (.frame [0x72, 0xF8, 0x00, 0x00, 0x1F]) = .ok (.pixframe [0xF800, 0x001F]) := by decide
theorem test_decode_pixframe_empty : decode (.frame [0x72]) = .ok (.pixframe []) := by decide

/-- V42, V46: reserved opcodes. -/
theorem test_decode_reserved :
    decode (.command [0x00, 0, 0, 0, 0]) = .error (.reservedOpcode 0x00) ∧
      decode (.command [0x08, 0, 0, 0, 0]) = .error (.reservedOpcode 0x08) := by decide
/-- V43, V44: a field that must be 0. -/
theorem test_decode_nonZeroField :
    decode (.command [0x01, 0x00, 0x03, 0x00, 0x01]) = .error .nonZeroField ∧
      decode (.command [0x05, 0x00, 0x01, 0x00, 0x00]) = .error .nonZeroField := by decide
/-- V45: a payload of one element where two are needed. -/
theorem test_decode_payloadLength :
    decode (.command [0x04, 0x00, 0x02, 0x00, 0x01, 0xF8, 0x00]) = .error .payloadLength := by decide
theorem test_decode_shortWord : decode (.command [0x01, 0x00, 0x03, 0x00]) = .error .shortWord := by decide
theorem test_decode_frames_without_meaning :
    decode (.frame []) = .error .emptyFrame ∧ decode (.frame [0x71, 0, 0]) = .error (.unknownStartByte 0x71) ∧
      decode (.frame [0x70, 0x00]) = .error .indexFrameLength ∧
      decode (.frame [0x72, 0x00]) = .error .oddPayload := by decide

theorem test_encode_wrreg : encode (.wrreg 0x1234 0xABCD) = .command [0x03, 0x12, 0x34, 0xAB, 0xCD] := by decide
theorem test_encode_setspd : encode (.setspd 8000000) = .command [0x07, 0x00, 0x7A, 0x12, 0x00] := by decide

/-! ### The host's two questions, on the opcode table's numbering -/

theorem test_table_wrreg : decodeTableWord 40 0x0300500014 = some (.wrreg 0x0050 0x0014) := by decide
theorem test_table_strm : decodeTableWord 40 0x0400020001 = some (.strm 2 1 [0, 0]) := by decide
theorem test_table_gramsel : decodeTableWord 24 0x700022 = some .gramsel := by decide
theorem test_table_pixframe : decodeTableWord 8 0x72 = some (.pixframe []) := by decide
theorem test_fetch_wrreg : (stepped (State.reset.withFetchWord 40 0x0300500014)).trace =
    [.cs .low, .tx 0x70, .tx 0x00, .tx 0x50, .cs .high, .cs .low, .tx 0x72, .tx 0x00, .tx 0x14, .cs .high] := by decide
theorem test_fetch_idxframe : (stepped (State.reset.withFetchWord 24 0x701234)).ctrl.sel = 0x1234 := by decide

/-! ### The instructions -/

/-- V1. -/
theorem test_wridx : (after (.wridx 0x0003) s0).trace =
    [.cs .low, .tx 0x70, .tx 0x00, .tx 0x03, .cs .high] := by decide
/-- R34: the register is selected. -/
theorem test_wridx_sel : (after (.wridx 0x1234) s0).ctrl.sel = 0x1234 := by decide
/-- V8: accepted though no index was sent before. -/
theorem test_wrdat : (after (.wrdat 0x0001) s0).trace =
    [.cs .low, .tx 0x72, .tx 0x00, .tx 0x01, .cs .high] ∧ code (after (.wrdat 0x0001) s0) = some 0 := by decide
/-- V6: byte order. -/
theorem test_wrreg : (after (.wrreg 0x1234 0xABCD) s0).trace =
    [.cs .low, .tx 0x70, .tx 0x12, .tx 0x34, .cs .high, .cs .low, .tx 0x72, .tx 0xAB, .tx 0xCD, .cs .high] := by decide
/-- P1: the register takes the value. -/
theorem test_wrreg_regs :
    Memory.read (after (.wrreg 0x0003 0x1030) s0).ctrl.regs 0x0003 = 0x1030 := by decide
/-- V9. -/
theorem test_strm : (after (.strm 2 1 [0xF800, 0x001F]) s0).trace =
    [.cs .low, .tx 0x70, .tx 0x00, .tx 0x22, .cs .high,
      .cs .low, .tx 0x72, .tx 0xF8, .tx 0x00, .tx 0x00, .tx 0x1F, .cs .high] := by decide
/-- V10: an empty buffer still sends both frames. -/
theorem test_strm_empty : (after (.strm 0 0 []) s0).trace =
    [.cs .low, .tx 0x70, .tx 0x00, .tx 0x22, .cs .high, .cs .low, .tx 0x72, .cs .high] := by decide
/-- V30. -/
theorem test_rstp : (after .rstp s0).trace =
    [.rst .high, .wait 10, .rst .low, .wait 10, .rst .high, .wait 50] := by decide
/-- V39. -/
theorem test_rstp_third_drive_fails :
    let t := after .rstp (answering [.ok, .ok, .fail] [] [])
    t.trace = [.rst .high, .wait 10, .rst .low, .wait 10, .fail 3] ∧ t.rstN = .low ∧ t.fault = 3 ∧
      code t = some 3 := by decide
/-- V28, V18. -/
theorem test_pack : (after (.pack 3 1 [0xFF0000, 0x0000FF, 0x123456]) s0).completions =
    [⟨0, some [0xF800, 0x001F, 0x11AA]⟩] := by decide
/-- V19, V23, V24, V26: truncation, and where the green bits land. -/
theorem test_pack_green : [0x070307, 0x001C00, 0x002000, 0xABCDEF].map packPixel =
    [0x0000, 0x00E0, 0x0100, 0xAE7D] := by decide
/-- V31. -/
theorem test_setspd : (after (.setspd 8000000) s0).speedHz = 8000000 ∧
    (after (.setspd 8000000) s0).speedActive = 1000 := by decide
/-- R34. -/
theorem test_idxframe : (after (.idxframe 0x1234) s0).ctrl.sel = 0x1234 ∧
    (after (.idxframe 0x1234) s0).trace = [] := by decide
/-- R35. -/
theorem test_datframe : Memory.read (after (.datframe 0x0133) (selecting 0x0007)).ctrl.regs 0x0007 = 0x0133 := by
  decide
/-- R36: with 0x0022 selected the value is a pixel, not a register write. -/
theorem test_datframe_gram : Memory.read (after (.datframe 0x0133) (selecting 0x0022)).ctrl.gram 0 = 0x0133 ∧
    Memory.read (after (.datframe 0x0133) (selecting 0x0022)).ctrl.regs 0x0022 = 0 := by decide
/-- R51. -/
theorem test_gramsel : (after .gramsel s0).ctrl.sel = 0x0022 := by decide
/-- R36, for one pixel. -/
theorem test_pixframe : Memory.read (after (.pixframe [0x0821]) (selecting 0x0022)).ctrl.gram 0 = 0x0821 := by
  decide

/-! ### Failures -/

/-- V33. -/
theorem test_gpio_first : (after (.wridx 0x0003) (answering [.fail] [] [])).trace = [.fail 3] ∧
    (after (.wridx 0x0003) (answering [.fail] [] [])).csN = .high := by decide
/-- V34. -/
theorem test_xfer_two : (after (.wridx 0x0003) (answering [] [.xferFail 2] [])).trace =
      [.cs .low, .tx 0x70, .tx 0x00, .fail 2] ∧
    (after (.wridx 0x0003) (answering [] [.xferFail 2] [])).csN = .low := by decide
/-- V36: all bytes out, still a failure. -/
theorem test_xfer_three : (after (.wridx 0x0003) (answering [] [.xferFail 3] [])).trace =
    [.cs .low, .tx 0x70, .tx 0x00, .tx 0x03, .fail 2] := by decide
/-- V37. -/
theorem test_open_fail : (after (.wridx 0x0003) (answering [] [.openFail] [])).trace = [.cs .low, .fail 1] := by decide
/-- V40, V41. -/
theorem test_refused : after (.wrdat 0x0001) faulted = { faulted with completions := [⟨5, none⟩] } ∧
    after (.pack 1 1 [0]) faulted = { faulted with completions := [⟨5, none⟩] } := ⟨rfl, rfl⟩
/-- V42. -/
theorem test_illegal : (stepped (presenting (.packet (.command [0, 0, 0, 0, 0])))).trace = [.fail 4] ∧
    (stepped (presenting (.packet (.command [0, 0, 0, 0, 0])))).fault = 4 := by decide
/-- V47. -/
theorem test_reset_open_fails :
    (stepped ((answering [] [] [.fail]).setHostSeq [.blockReset 7])).trace = [.fail 1] ∧
      (stepped ((answering [] [] [.fail]).setHostSeq [.blockReset 7])).fault = 1 := by decide
/-- R140: the host is handed the code block reset ends with. -/
theorem test_reset_code :
    (stepped ((answering [.ok, .fail] [] []).setHostSeq [.blockReset 7])).completions = [⟨3, none⟩] ∧
      (stepped (s0.setHostSeq [.blockReset 7])).completions = [⟨0, none⟩] := by decide
/-- R151, R131: the reset line is never answered; the elements have been reset. -/
theorem test_reset_hangs :
    let t := stepped (((answering [.ok, .never] [] []).setHostSeq [.blockReset 7]).setFault 2)
    t.fault = 0 ∧ t.speedHz = 7 ∧ t.speedActive = 7 ∧ t.hostSeq = [.acquire [.rstLine, .bus]] ∧
      (stepped t).hostSeq = t.hostSeq := by decide
/-- P4: the second transfer of a `WRREG` is cut after its start byte. -/
theorem test_p4 : (after (.wrreg 0x0050 0x0014) (answering [] [.ok, .xferFail 1] [])).trace =
    [.cs .low, .tx 0x70, .tx 0x00, .tx 0x50, .cs .high, .cs .low, .tx 0x72, .fail 2] := by decide

/-! ### The host -/

/-- S4, S5, V49, V50, V54. -/
theorem test_window :
    drawWindow 20 100 200 150 = ⟨20, 100, 219, 249⟩ ∧ drawWindow (-5) 310 50 50 = ⟨0, 310, 44, 319⟩ ∧
      drawWindow 230 300 20 40 = ⟨230, 300, 239, 319⟩ ∧ drawWindow (-100) (-100) 50 50 = ⟨0, 0, 0, 0⟩ ∧
      drawWindow 5 5 0 3 = ⟨5, 5, 4, 7⟩ := by decide

/-- P3, its commands: pack, then start before end, then the stream. -/
theorem test_draw_steps (p : HostParams) (px : List Rgb) :
    drawRegionSteps p 10 20 { w := 2, h := 2, px := px } =
      [.give (.pack 2 2 px), .check .operation,
        .give (.wrreg p.regHStart 0x000A), .check .operation, .give (.wrreg p.regVStart 0x0014), .check .operation,
        .give (.wrreg p.regHEnd 0x000B), .check .operation, .give (.wrreg p.regVEnd 0x0015), .check .operation,
        .stream 2 2, .check .operation, .ret .done] := by rfl

/-- Host parameters with two window writes out of the order of `SETWIN`. -/
def params : HostParams :=
  { regHStart := 0x50, regVStart := 0x52, regHEnd := 0x51, regVEnd := 0x53
    power := ⟨⟨0x10, 1⟩, [], ⟨50, by decide⟩, [⟨0x11, 7⟩], ⟨200, by decide⟩, [], ⟨0x12, 3⟩⟩
    window := [⟨0x50, 0⟩, ⟨0x51, 239⟩, ⟨0x52, 0⟩, ⟨0x53, 319⟩]
    displayOn := [⟨0x07, 0x0133⟩] }

/-- R113: the groups in order, the delays inside the power group. -/
theorem test_initSeq : initSeq params =
    [.write 0x10 1, .delay 50, .write 0x11 7, .delay 200, .write 0x12 3,
      .write 0x50 0, .write 0x51 239, .write 0x52 0, .write 0x53 319, .write 0x07 0x0133] := by decide

/-! ### Memory -/

theorem test_memory_canonical : Memory.write (Memory.write [] 5 1) 3 2 = [(3, 2), (5, 1)] ∧
    Memory.write [(3, 2), (5, 1)] 5 9 = [(3, 2), (5, 9)] := by decide
/-- Writing what an unlisted number reads as takes the entry out. -/
theorem test_memory_unlisted : Memory.write [(3, 2), (5, 1)] 3 0 = [(5, 1)] ∧ Memory.read [(5, 1)] 3 = 0 := by decide
theorem test_reset_memory_wf : Memory.wf State.reset.ctrl.regs ∧ Memory.wf State.reset.ctrl.gram := by decide

/-! ### Witnesses: values that meet the hypotheses of each statement together, clause by clause -/

theorem normal_s0 : NormalOperation s0 := ⟨rfl, rfl, rfl⟩
theorem normal_selecting (a : U16) : NormalOperation (selecting a) := ⟨rfl, rfl, rfl⟩
theorem normal_presenting (x : Stimulus) : NormalOperation (presenting x) := ⟨rfl, rfl, rfl⟩
theorem idle_presenting (x : Stimulus) : Idle (presenting x) := ⟨rfl, rfl⟩

/-- The state in which a command has one micro-operation to go. -/
def midway (u : MicroOp) (gpio : List PinAnswer) (xfer : List XferAnswer) : State :=
  (answering gpio xfer []).setSeq [u]

theorem witness_BlockResetAcquiresInOrder :
    (∀ e, ((s0.setEnv e).setHostSeq [.blockReset 7]).seq = [] ∧
      ((s0.setEnv e).setHostSeq [.blockReset 7]).hostSeq = .blockReset 7 :: []) ∧
    (askGpio (answering [.fail] [] []).env).1 = .fail ∧
    (askGpio (answering [.never] [] []).env).1 = .never ∧
    (∀ a, (askGpio (answering [.ok, a] [] []).env).1 = .ok ∧
      (askGpio (askGpio (answering [.ok, a] [] []).env).2).1 = a) ∧
    (∀ a, (askGpio (answering [] [] [a]).env).1 = .ok ∧
      (askGpio (askGpio (answering [] [] [a]).env).2).1 = .ok ∧
      (askOpen (askGpio (askGpio (answering [] [] [a]).env).2).2).1 = a) ∧
    ((askGpio s0.env).1 = .ok ∧ (askGpio (askGpio s0.env).2).1 = .ok ∧
      (askOpen (askGpio (askGpio s0.env).2).2).1 = .ok) :=
  ⟨fun _ => ⟨rfl, rfl⟩, rfl, rfl, fun _ => ⟨rfl, rfl⟩, fun _ => ⟨rfl, rfl, rfl⟩, ⟨rfl, rfl, rfl⟩⟩

/-- Both sides of the GRAM index. -/
theorem witness_WridxSendsIndexFrame :
    NormalOperation s0 ∧ (0x0021 : U16) ≠ 0x0022 ∧ (0x0023 : U16) ≠ 0x0022 := ⟨normal_s0, by decide, by decide⟩

theorem witness_WrdatSendsDataFrame :
    (NormalOperation (selecting 0x0021) ∧ (selecting 0x0021).ctrl.sel ≠ 0x0022) ∧
      (NormalOperation (selecting 0x0022) ∧ (selecting 0x0022).ctrl.sel = 0x0022) :=
  ⟨⟨normal_selecting _, by decide⟩, ⟨normal_selecting _, rfl⟩⟩

theorem witness_WrregWritesRegister : NormalOperation s0 ∧ (0xFFFF : U16) ≠ 0x0022 := ⟨normal_s0, by decide⟩

theorem witness_StrmStreamsWholeBuffer :
    NormalOperation s0 ∧ [0xF800, 0x001F].length = (2 : U16).toNat * (1 : U16).toNat ∧
      ([0xF800, 0x001F] : List Pixel) ≠ [] ∧ ([] : List Pixel).length = (0 : U16).toNat * (5 : U16).toNat :=
  ⟨normal_s0, by decide, by decide, by decide⟩

theorem witness_RstpPulsesResetLine : NormalOperation s0 := normal_s0

theorem witness_PackReturnsPackedBuffer :
    s0.fault = 0 ∧ s0.seq = [] ∧ ([0xFF0000, 0x0000FF] : List Rgb).length = (2 : U16).toNat * (1 : U16).toNat ∧
      ([0xFF0000, 0x0000FF] : List Rgb)[1]? = some 0x0000FF := by decide

theorem witness_SetspdWritesSpeedHz : s0.fault = 0 ∧ s0.seq = [] := by decide

/-- Both sides of the GRAM index. -/
theorem witness_IndexFrameSelectsRegister : (0x0021 : U16) ≠ 0x0022 ∧ (0x0023 : U16) ≠ 0x0022 := by decide

theorem witness_DataFrameWritesSelectedRegister :
    (selecting 0x0021).ctrl.sel ≠ 0x0022 ∧ NormalOperation s0 ∧ (0x0023 : U16) ≠ 0x0022 :=
  ⟨by decide, normal_s0, by decide⟩

theorem witness_DataFrameWritesOnePixel : (selecting 0x0022).ctrl.sel = 0x0022 := by decide

theorem witness_StreamFrameWritesPixels :
    ((selecting 0x0022).ctrl.sel = 0x0022 ∧ ([0x0821] : List Pixel) ≠ [] ∧ ([1, 2, 3] : List Pixel) ≠ []) ∧
      ((selecting 0x0023).ctrl.sel ≠ 0x0022 ∧ ([0x0821] : List Pixel) = [0x0821]) := by decide

theorem witness_DecodeOfEncodeIsInstruction :
    Instr.wf (.strm 2 1 [1, 2]) = true ∧ Instr.wf (.pack 1 1 [3]) = true ∧ Instr.wf (.idxframe 0x0021) = true ∧
      Instr.wf (.pixframe []) = true ∧ Instr.wf (.pixframe [1, 2]) = true ∧ Instr.wf .gramsel = true ∧
      Instr.wf (.setspd 0) = true := by decide

theorem witness_EncodeOfDecodeIsWord :
    decode (.command [0x03, 0xFF, 0xFF, 0xFF, 0xFF]) = .ok (.wrreg 0xFFFF 0xFFFF) := by decide

theorem witness_PixelBytesHighByteFirst : ([0xF800, 0x001F] : List Pixel)[1]? = some 0x001F ∧
    ([0xFF0000, 0x0000FF] : List Rgb)[1]? = some 0x0000FF := by decide

theorem witness_StepRunsDecodedInstruction :
    let s := presenting (.packet (.frame [0x70, 0x00, 0x03]))
    s.seq = [] ∧ s.hostSeq = [] ∧ s.inbox = .packet (.frame [0x70, 0x00, 0x03]) :: [] ∧
      decode (.frame [0x70, 0x00, 0x03]) = .ok (.idxframe 3) := by decide

theorem witness_StepTakesHeadOfSeq :
    (midway (.wait 10) [] []).seq = .wait 10 :: [] ∧ (midway (.wait 10) [] []).env.allOk = true := by decide

theorem witness_IdleBlockStays : s0.seq = [] ∧ s0.hostSeq = [] ∧ s0.inbox = [] := by decide

theorem witness_UnansweredActionHangs :
    (midway (.driveCs .low) [.never] []).seq = .driveCs .low :: [] ∧
      (askGpio (midway (.driveCs .low) [.never] []).env).1 = .never ∧
      (midway (.txFrame [0x70]) [] [.never]).seq = .txFrame [0x70] :: [] ∧
      (askXfer (midway (.txFrame [0x70]) [] [.never]).env).1 = .never := by decide

theorem witness_BusyBlockAcceptsNothing :
    (midway (.driveCs .low) [.never] []).seq ≠ [] ∧ Instr.isCommand (.wridx 3) = true := by decide

theorem witness_BigStepEqualsMicroSteps : Instr.isCommand (.wridx 3) = true ∧ s0.seq = [] := by decide

theorem witness_DriveCsDrivesLine :
    (midway (.driveCs .high) [] []).seq = .driveCs .high :: [] ∧ (askGpio (midway (.driveCs .high) [] []).env).1 = .ok ∧
      (midway (.driveCs .high) [.fail] []).seq = .driveCs .high :: [] ∧
      (askGpio (midway (.driveCs .high) [.fail] []).env).1 = .fail ∧ (midway (.driveCs .high) [.fail] []).fault = 0 ∧
      ((midway (.driveCs .high) [.fail] []).setFault 1).fault ≠ 0 := by decide

theorem witness_DriveRstDrivesLine :
    (midway (.driveRst .low) [] []).seq = .driveRst .low :: [] ∧ (askGpio (midway (.driveRst .low) [] []).env).1 = .ok ∧
      (midway (.driveRst .low) [.fail] []).seq = .driveRst .low :: [] ∧
      (askGpio (midway (.driveRst .low) [.fail] []).env).1 = .fail ∧ (midway (.driveRst .low) [.fail] []).fault = 0 ∧
      ((midway (.driveRst .low) [.fail] []).setFault 1).fault ≠ 0 := by decide

/-- With a failure after no byte and after all of them. -/
theorem witness_TxFrameSendsBytes :
    (∀ x, (midway (.txFrame [0x70, 0, 3]) [] x).seq = .txFrame [0x70, 0, 3] :: []) ∧
      (askXfer (midway (.txFrame [0x70, 0, 3]) [] []).env).1 = .ok ∧
      (askXfer (midway (.txFrame [0x70, 0, 3]) [] [.openFail]).env).1 = .openFail ∧
      (askXfer (midway (.txFrame [0x70, 0, 3]) [] [.xferFail 0]).env).1 = .xferFail 0 ∧
      3 ≤ ([0x70, 0, 3] : List Byte).length ∧
      (askXfer (midway (.txFrame [0x70, 0, 3]) [] [.xferFail 3]).env).1 = .xferFail 3 :=
  ⟨fun _ => rfl, rfl, rfl, rfl, by decide, rfl⟩

theorem witness_WaitLeavesItsEvent : (midway (.wait 50) [] []).seq = .wait 50 :: [] := by decide

theorem witness_FaultedBlockRefusesEverything :
    Instr.isCommand .rstp = true ∧ faulted.fault ≠ 0 ∧ faulted.seq = [] ∧
      ¬ ResetNext faulted ∧ step faulted = .next faulted :=
  ⟨rfl, by decide, rfl, (fun ⟨_, _, _, h, _⟩ => nomatch h), rfl⟩

theorem witness_IllegalCommandRaisedAtAcceptance :
    Idle (presenting (.packet (.command [8, 0, 0, 0, 0]))) ∧
      (presenting (.packet (.command [8, 0, 0, 0, 0]))).fault = 0 ∧
      decode (.command [8, 0, 0, 0, 0]) = .error (.reservedOpcode 8) ∧ s0.seq = [] ∧ s0.fault = 0 ∧
      ([] : List Pixel).length ≠ (1 : U16).toNat * (1 : U16).toNat ∧
      ([0] : List Rgb).length ≠ (0 : U16).toNat * (1 : U16).toNat :=
  ⟨idle_presenting _, rfl, by decide, rfl, rfl, by decide, by decide⟩

theorem witness_RefusalTestedBeforeIllegality :
    Idle (faulted.setInbox [.packet (.command [8, 0, 0, 0, 0])]) ∧
      (faulted.setInbox [.packet (.command [8, 0, 0, 0, 0])]).fault ≠ 0 ∧
      decode (.command [8, 0, 0, 0, 0]) = .error (.reservedOpcode 8) := ⟨⟨rfl, rfl⟩, by decide, by decide⟩

theorem witness_ThreeByteCommandFailures :
    (∀ g x, (answering g x []).fault = 0 ∧ (answering g x []).seq = []) ∧
      (askGpio (answering [.fail] [] []).env).1 = .fail ∧
      ((askGpio (answering [] [.openFail] []).env).1 = .ok ∧
        (askXfer (askGpio (answering [] [.openFail] []).env).2).1 = .openFail) ∧
      ((askGpio (answering [] [.xferFail 0] []).env).1 = .ok ∧
        (askXfer (askGpio (answering [] [.xferFail 0] []).env).2).1 = .xferFail 0) ∧
      ((askGpio (answering [] [.xferFail 3] []).env).1 = .ok ∧
        (askXfer (askGpio (answering [] [.xferFail 3] []).env).2).1 = .xferFail 3) ∧
      ((askGpio (answering [.ok, .fail] [] []).env).1 = .ok ∧
        (askXfer (askGpio (answering [.ok, .fail] [] []).env).2).1 = .ok ∧
        (askGpio (askXfer (askGpio (answering [.ok, .fail] [] []).env).2).2).1 = .fail) :=
  ⟨fun _ _ => ⟨rfl, rfl⟩, rfl, ⟨rfl, rfl⟩, ⟨rfl, rfl⟩, ⟨rfl, rfl⟩, ⟨rfl, rfl, rfl⟩⟩

/-- Each of the six micro-operations in turn; a transfer is cut before its first byte and after its last. -/
theorem witness_StreamFrameCutAnywhere :
    (∀ g x, (answering g x []).fault = 0 ∧ (answering g x []).seq = []) ∧
      ([1, 2] : List Pixel).length = (2 : U16).toNat * (1 : U16).toNat ∧
      (∀ g1 g2 g3 g4 x1 x2,
        let a1 := askGpio (answering [g1, g2, g3, g4] [x1, x2] []).env
        let a2 := askXfer a1.2
        let a3 := askGpio a2.2
        let a4 := askGpio a3.2
        let a5 := askXfer a4.2
        let a6 := askGpio a5.2
        a1.1 = g1 ∧ a2.1 = x1 ∧ a3.1 = g2 ∧ a4.1 = g3 ∧ a5.1 = x2 ∧ a6.1 = g4) ∧
      0 ≤ 3 ∧ 3 ≤ 3 ∧ 0 ≤ 1 + 2 * ((2 : U16).toNat * (1 : U16).toNat) ∧
      5 ≤ 1 + 2 * ((2 : U16).toNat * (1 : U16).toNat) :=
  ⟨fun _ _ => ⟨rfl, rfl⟩, by decide, fun _ _ _ _ _ _ => ⟨rfl, rfl, rfl, rfl, rfl, rfl⟩, by decide, by decide, by decide,
    by decide⟩

theorem witness_RstpFailures :
    (∀ g, (answering g [] []).fault = 0 ∧ (answering g [] []).seq = []) ∧
      (askGpio (answering [.fail] [] []).env).1 = .fail ∧
      ((askGpio (answering [.ok, .fail] [] []).env).1 = .ok ∧
        (askGpio (askGpio (answering [.ok, .fail] [] []).env).2).1 = .fail) ∧
      ((askGpio (answering [.ok, .ok, .fail] [] []).env).1 = .ok ∧
        (askGpio (askGpio (answering [.ok, .ok, .fail] [] []).env).2).1 = .ok ∧
        (askGpio (askGpio (askGpio (answering [.ok, .ok, .fail] [] []).env).2).2).1 = .fail) :=
  ⟨fun _ => ⟨rfl, rfl⟩, rfl, ⟨rfl, rfl⟩, ⟨rfl, rfl, rfl⟩⟩

/-- A run that succeeds, one whose index frame is cut, one whose data frame is cut. -/
theorem witness_WrregIsWridxThenWrdat :
    let meets := fun s => s.seq = [] ∧ exec (.wridx 3) s = .next (after (.wridx 3) s) ∧ (after (.wridx 3) s).seq = []
    meets s0 ∧
      (meets (answering [] [.xferFail 2] []) ∧ (after (.wridx 3) (answering [] [.xferFail 2] [])).fault = 2) ∧
      (meets (answering [] [.ok, .xferFail 1] []) ∧
        (after (.wrdat 7) (after (.wridx 3) (answering [] [.ok, .xferFail 1] []))).fault = 2) :=
  ⟨⟨rfl, rfl, rfl⟩, ⟨⟨rfl, rfl, rfl⟩, rfl⟩, ⟨⟨rfl, rfl, rfl⟩, rfl⟩⟩

theorem witness_InstructionsKeepWhatIsNotTheirs :
    (exec (.wridx 3) s0 = .next (after (.wridx 3) s0) ∧ (∀ hz, Instr.wridx 3 ≠ .setspd hz) ∧
        Instr.wridx 3 ≠ .rstp) ∧
      (exec .gramsel s0 = .next (after .gramsel s0) ∧ Instr.isCommand .gramsel = false) :=
  ⟨⟨rfl, by simp, by simp⟩, ⟨rfl, rfl⟩⟩

/-- Both in a step of the sequencer and in one that takes what is presented. -/
theorem witness_TraceOnlyGrows_SpeedActiveOnlyByBlockReset :
    (step (midway (.wait 10) [] []) = .next (stepped (midway (.wait 10) [] [])) ∧
        ¬ ResetNext (midway (.wait 10) [] [])) ∧
      (let s := presenting (.packet (.command [1, 0, 3, 0, 0]))
       step s = .next (stepped s) ∧ ¬ ResetNext s) :=
  ⟨⟨rfl, fun ⟨h, _⟩ => nomatch h⟩, ⟨rfl, fun ⟨_, _, _, h, _⟩ => nomatch h⟩⟩

theorem witness_StepKeepsInvariant :
    BlockInv (presenting (.packet (.command [1, 0, 3, 0, 0]))) ∧
      step (presenting (.packet (.command [1, 0, 3, 0, 0]))) =
        .next (stepped (presenting (.packet (.command [1, 0, 3, 0, 0])))) where
  left :=
    { spi := rfl, csLevel := rfl, csAlternates := rfl
      txInBracket := fun pre b post h => by simp [presenting, s0, State.resetWith] at h
      startByte := fun pre mid b post h => by simp [presenting, s0, State.resetWith] at h
      rstWait := fun pre e post h => by simp [presenting, s0, State.resetWith] at h
      failEnds := fun pre k post h => by simp [presenting, s0, State.resetWith] at h
      faultCode := fun h => absurd rfl h
      noFail := fun _ k => by simp [presenting, s0, State.resetWith]
      faultRange := by decide
      seqDropped := fun _ => rfl, seqFits := fun _ => rfl, rstInactive := fun _ => rfl
      resetWaits := fun _ _ h => nomatch h
      resetFirst := fun _ h => nomatch h
      regsWf := Memory.wf_nil
      regsRange := fun e he => by simp [presenting, s0, State.resetWith, Controller.reset] at he
      gramWf := Memory.wf_nil }
  right := rfl

theorem witness_ChipSelectInactiveBetweenCommands :
    ∃ s, BlockInv s ∧ s.fault = 0 ∧ s.seq = [] := ⟨_, witness_StepKeepsInvariant.1, rfl, rfl⟩

theorem witness_EventCounts :
    NormalOperation s0 ∧ Instr.wf (.strm 2 1 [1, 2]) = true ∧ Instr.isCommand (.strm 2 1 [1, 2]) = true ∧
      exec (.strm 2 1 [1, 2]) s0 = .next (after (.strm 2 1 [1, 2]) s0) := ⟨normal_s0, rfl, rfl, rfl⟩

/-- The bounds themselves, and a value outside each. -/
theorem witness_ClampReturnsNearestBound :
    (0 : Int) ≤ 239 ∧ (-1 : Int) < 0 ∧ (239 : Int) < 240 ∧ ((0 : Int) ≤ 0 ∧ (0 : Int) ≤ 239) ∧
      ((0 : Int) ≤ 239 ∧ (239 : Int) ≤ 239) := by decide

/-- The whole panel, and starts and ends off it on each side. -/
theorem witness_WindowLiesOnPanel :
    ((-1 : Int) < 0 ∧ (239 : Int) < 240 ∧ (319 : Int) < 320 ∧ (0 : Int) ≤ 0 ∧ (239 : Int) ≤ 239) ∧
    (1 : Int) ≤ 240 ∧ (0 : Int) ≤ 0 ∧ (0 : Int) + 240 ≤ 240 ∧ (1 : Int) ≤ 1 ∧ (319 : Int) + 1 ≤ 320 := by decide

theorem witness_SetWinWritesStartBeforeEnd :
    NormalOperation (presenting (.host (.setWin 0 0 239 319))) ∧
      (presenting (.host (.setWin 0 0 239 319))).hostSeq = [] ∧
      (presenting (.host (.setWin 0 0 239 319))).inbox = .host (.setWin 0 0 239 319) :: [] :=
  ⟨normal_presenting _, rfl, rfl⟩

/-- Two pixels side by side. -/
def drawn : PixelBuffer := { w := 2, h := 1, px := [0xFF0000, 0x00FF00] }

/-- No pixel. -/
def empty : PixelBuffer := { w := 0, h := 3, px := [] }

/-- A draw that is clipped on the left, and an empty one. -/
theorem witness_DrawRegionSetsWindowThenStreams :
    let s := (presenting (.host (.drawRegion (-5) 310 drawn))).setDrv .ready
    let s' := (presenting (.host (.drawRegion 5 5 empty))).setDrv .ready
    (NormalOperation s ∧ s.hostSeq = [] ∧ s.drv = .ready ∧ s.inbox = .host (.drawRegion (-5) 310 drawn) :: [] ∧
      drawn.px.length = drawn.w.toNat * drawn.h.toNat) ∧
      NormalOperation s' ∧ s'.hostSeq = [] ∧ s'.drv = .ready ∧ s'.inbox = .host (.drawRegion 5 5 empty) :: [] ∧
      empty.px.length = empty.w.toNat * empty.h.toNat :=
  ⟨⟨⟨rfl, rfl, rfl⟩, rfl, rfl, rfl, by decide⟩, ⟨rfl, rfl, rfl⟩, rfl, rfl, rfl, by decide⟩

theorem witness_DrawFullIsDrawRegionAtOrigin :
    Idle s0 ∧ (List.replicate (240 * 320) (0 : Pixel)).length = 240 * 320 :=
  ⟨⟨rfl, rfl⟩, List.length_replicate⟩

theorem witness_DrawNeedsReadyDriver :
    Idle (presenting (.host (.drawFull drawn))) ∧ (presenting (.host (.drawFull drawn))).drv ≠ .ready ∧
      (presenting (.host (.drawFull drawn))).inbox = .host (.drawFull drawn) :: [] :=
  ⟨idle_presenting _, by simp [presenting, s0, State.resetWith], rfl⟩

theorem witness_GetSizeReturnsPanel :
    Idle (presenting (.host .getSize)) ∧ (presenting (.host .getSize)).inbox = .host .getSize :: [] :=
  ⟨idle_presenting _, rfl⟩

theorem witness_ConstructionReachesReady :
    Idle (presenting (.host (.new 7))) ∧ (presenting (.host (.new 7))).env.allOk = true ∧
      (presenting (.host (.new 7))).inbox = .host (.new 7) :: [] := ⟨idle_presenting _, rfl, rfl⟩

theorem witness_ConstructionFailsWithBlockReset :
    (∀ g o, let s := (answering g [] o).setInbox [.host (.new 7)]
      Idle s ∧ s.inbox = .host (.new 7) :: []) ∧
    (askGpio (answering [.fail] [] []).env).1 = .fail ∧
    ((askGpio (answering [.ok, .fail] [] []).env).1 = .ok ∧
      (askGpio (askGpio (answering [.ok, .fail] [] []).env).2).1 = .fail) ∧
    ((askGpio (answering [] [] [.fail]).env).1 = .ok ∧
      (askGpio (askGpio (answering [] [] [.fail]).env).2).1 = .ok ∧
      (askOpen (askGpio (askGpio (answering [] [] [.fail]).env).2).2).1 = .fail) :=
  ⟨fun _ _ => ⟨⟨rfl, rfl⟩, rfl⟩, rfl, ⟨rfl, rfl⟩, ⟨rfl, rfl, rfl⟩⟩

/-- A command, a block reset, the step to `Ready` and a return stand in a sequence; a check meets code 0 and code 3. -/
theorem witness_InitStopsAtFirstFailure :
    (∀ p drv, opSteps p drv (.setWin 0 1 2 3) = [] ++ .give (.wrreg p.regHStart 0) :: (opSteps p drv (.setWin 0 1 2 3)).tail ∧
      opSteps p drv (.new 7) = [] ++ .blockReset 7 :: (opSteps p drv (.new 7)).tail ∧
      opSteps p drv (.new 7) = ([.blockReset 7, .setDrv .uninitialized, .check .construction, .setDrv .initializing] ++
        giveChecked .construction .rstp ++ (initSeq p).flatMap initItemSteps) ++ .setDrv .ready :: [.ret .driver] ∧
      opSteps p drv .getSize = [] ++ .ret (.size 240 320) :: []) ∧
    ∀ h code, let s := (complete code none faulted).setHostSeq [.check h]
      s.seq = [] ∧ s.hostSeq = .check h :: [] ∧ s.completions.getLast? = some ⟨code, none⟩ ∧ (3 : BitVec 3) ≠ 0 :=
  ⟨fun _ _ => ⟨rfl, rfl, by simp [opSteps, newSteps, initSteps], rfl⟩, fun _ _ => ⟨rfl, rfl, rfl, by decide⟩⟩

end Sys2Proof.Tests
end

section
/-! SUPPORT. The sequencer by its rules: each micro-operation with each answer of the environment (10_state.md R20 to
R23), what one step of the sequencer can do (R24), and a command given by its parts (R19). -/

namespace Sys2Proof.Machine

/-! ### A micro-operation and the answer it gets -/

theorem perform_driveCs_ok (l : Level) {s : State} (h : (askGpio s.env).1 = .ok) :
    perform (.driveCs l) s = .done (emit (.cs l) ((s.setCsN l).setEnv (askGpio s.env).2)) := by
  rcases ha : askGpio s.env with ⟨a, e⟩
  obtain rfl : a = .ok := by simpa [ha] using h
  simp [perform, driveCs, ha]

theorem perform_driveCs_fail (l : Level) {s : State} (h : (askGpio s.env).1 = .fail) :
    perform (.driveCs l) s = .failed (.gpioAccess .cs) (s.setEnv (askGpio s.env).2) := by
  rcases ha : askGpio s.env with ⟨a, e⟩
  obtain rfl : a = .fail := by simpa [ha] using h
  simp [perform, driveCs, ha]

theorem perform_driveRst_ok (l : Level) {s : State} (h : (askGpio s.env).1 = .ok) :
    perform (.driveRst l) s = .done (emit (.rst l) ((s.setRstN l).setEnv (askGpio s.env).2)) := by
  rcases ha : askGpio s.env with ⟨a, e⟩
  obtain rfl : a = .ok := by simpa [ha] using h
  simp [perform, driveRst, ha]

theorem perform_driveRst_fail (l : Level) {s : State} (h : (askGpio s.env).1 = .fail) :
    perform (.driveRst l) s = .failed (.gpioAccess .rst) (s.setEnv (askGpio s.env).2) := by
  rcases ha : askGpio s.env with ⟨a, e⟩
  obtain rfl : a = .fail := by simpa [ha] using h
  simp [perform, driveRst, ha]

theorem perform_txFrame_ok (f : List Byte) {s : State} (h : (askXfer s.env).1 = .ok) :
    perform (.txFrame f) s = .done (emitBytes f (s.setEnv (askXfer s.env).2)) := by
  rcases ha : askXfer s.env with ⟨a, e⟩
  obtain rfl : a = .ok := by simpa [ha] using h
  simp [perform, txFrame, ha]

theorem perform_txFrame_openFail (f : List Byte) {s : State} (h : (askXfer s.env).1 = .openFail) :
    perform (.txFrame f) s = .failed .busOpen (s.setEnv (askXfer s.env).2) := by
  rcases ha : askXfer s.env with ⟨a, e⟩
  obtain rfl : a = .openFail := by simpa [ha] using h
  simp [perform, txFrame, ha]

theorem perform_txFrame_xferFail (f : List Byte) {k : Nat} {s : State} (h : (askXfer s.env).1 = .xferFail k) :
    perform (.txFrame f) s =
      .failed (.busTransfer k) (emitBytes (f.take k) (s.setEnv (askXfer s.env).2)) := by
  rcases ha : askXfer s.env with ⟨a, e⟩
  obtain rfl : a = .xferFail k := by simpa [ha] using h
  simp [perform, txFrame, ha]

theorem perform_wait (ms : Nat) (s : State) : perform (.wait ms) s = .done (emit (.wait ms) s) := rfl

/-- Where the environment answers `ok` no micro-operation raises a failure or completes the command (R131). -/
theorem perform_allOk (u : MicroOp) {s : State} (h : s.env.allOk = true) :
    ∃ t, perform u s = .done t ∧ t.fault = s.fault ∧ t.completions = s.completions := by
  cases u with
  | driveCs l =>
    obtain ⟨e, -, he⟩ := driveCs_ok l h
    exact ⟨_, he, by simp, by simp⟩
  | driveRst l =>
    obtain ⟨e, -, he⟩ := driveRst_ok l h
    exact ⟨_, he, by simp, by simp⟩
  | txFrame f =>
    obtain ⟨e, -, he⟩ := txFrame_ok f h
    exact ⟨_, he, by simp, by simp⟩
  | wait ms => exact ⟨_, perform_wait ms s, by simp, by simp⟩

/-! ### Fields after a micro-operation that did not raise -/

@[simp] theorem advance_csN (r : List MicroOp) (s : State) : (advance r s).csN = s.csN := by cases r <;> rfl
@[simp] theorem advance_rstN (r : List MicroOp) (s : State) : (advance r s).rstN = s.rstN := by cases r <;> rfl
@[simp] theorem advance_speedHz (r : List MicroOp) (s : State) : (advance r s).speedHz = s.speedHz := by
  cases r <;> rfl
@[simp] theorem advance_speedActive (r : List MicroOp) (s : State) : (advance r s).speedActive = s.speedActive := by
  cases r <;> rfl
@[simp] theorem advance_spiMode (r : List MicroOp) (s : State) : (advance r s).spiMode = s.spiMode := by
  cases r <;> rfl
@[simp] theorem advance_seq (r : List MicroOp) (s : State) : (advance r s).seq = r := by cases r <;> rfl
@[simp] theorem advance_fault (r : List MicroOp) (s : State) : (advance r s).fault = s.fault := by cases r <;> rfl
@[simp] theorem advance_trace (r : List MicroOp) (s : State) : (advance r s).trace = s.trace := by cases r <;> rfl
@[simp] theorem advance_env (r : List MicroOp) (s : State) : (advance r s).env = s.env := by cases r <;> rfl
@[simp] theorem advance_ctrl (r : List MicroOp) (s : State) : (advance r s).ctrl = s.ctrl := by cases r <;> rfl
@[simp] theorem advance_drv (r : List MicroOp) (s : State) : (advance r s).drv = s.drv := by cases r <;> rfl
@[simp] theorem advance_hostSeq (r : List MicroOp) (s : State) : (advance r s).hostSeq = s.hostSeq := by
  cases r <;> rfl
@[simp] theorem advance_inbox (r : List MicroOp) (s : State) : (advance r s).inbox = s.inbox := by cases r <;> rfl
@[simp] theorem advance_hostLog (r : List MicroOp) (s : State) : (advance r s).hostLog = s.hostLog := by
  cases r <;> rfl

theorem advance_completions (r : List MicroOp) (s : State) : (advance r s).completions =
    if r = [] then s.completions ++ [⟨0, none⟩] else s.completions := by
  cases r <;> simp [advance, codeNone]

/-! ### The sequencer's step -/

theorem microStep_done {s t : State} {u : MicroOp} {rest : List MicroOp} (hs : s.seq = u :: rest)
    (hp : perform u s = .done t) : microStep s = advance rest t := by
  simp only [microStep, hs, hp]

theorem microStep_failed {s t : State} {u : MicroOp} {rest : List MicroOp} {f : Failure} (hs : s.seq = u :: rest)
    (hp : perform u s = .failed f t) : microStep s = failCommand f t := by
  simp only [microStep, hs, hp]

theorem microStep_hung {s : State} {u : MicroOp} {rest : List MicroOp} (hs : s.seq = u :: rest)
    (hp : perform u s = .hung) : microStep s = s := by
  simp only [microStep, hs, hp]

theorem step_done {s t : State} {u : MicroOp} {rest : List MicroOp} (hs : s.seq = u :: rest)
    (hp : perform u s = .done t) : step s = .next (advance rest t) := by
  rw [step_microStep hs, microStep_done hs hp]

theorem step_failed {s t : State} {u : MicroOp} {rest : List MicroOp} {f : Failure} (hs : s.seq = u :: rest)
    (hp : perform u s = .failed f t) : step s = .next (failCommand f t) := by
  rw [step_microStep hs, microStep_failed hs hp]

/-- All that one step of the sequencer can do: the micro-operation is done, or a failure is raised after the bytes that
went out before it, or the state stays. -/
theorem microStep_cases {s : State} {u : MicroOp} {rest : List MicroOp} (hs : s.seq = u :: rest) :
    (∃ l e, u = .driveCs l ∧ microStep s = advance rest (emit (.cs l) ((s.setCsN l).setEnv e))) ∨
    (∃ l e, u = .driveRst l ∧ microStep s = advance rest (emit (.rst l) ((s.setRstN l).setEnv e))) ∨
    (∃ f e, u = .txFrame f ∧ microStep s = advance rest (emitBytes f (s.setEnv e))) ∨
    (∃ ms, u = .wait ms ∧ microStep s = advance rest (emit (.wait ms) s)) ∨
    (∃ g e sent, (sent = [] ∨ ∃ f k, u = .txFrame f ∧ sent = f.take k) ∧
      microStep s = failCommand g (emitBytes sent (s.setEnv e))) ∨
    microStep s = s := by
  rcases perform_cases u s with ⟨l, e, hu, hp⟩ | ⟨l, e, hu, hp⟩ | ⟨f, e, hu, hp⟩ | ⟨ms, hu, hp⟩ | ⟨g, e, hp, -⟩ |
    ⟨f, k, e, hu, hp⟩ | hp
  · exact .inl ⟨l, e, hu, microStep_done hs hp⟩
  · exact .inr (.inl ⟨l, e, hu, microStep_done hs hp⟩)
  · exact .inr (.inr (.inl ⟨f, e, hu, microStep_done hs hp⟩))
  · exact .inr (.inr (.inr (.inl ⟨ms, hu, microStep_done hs hp⟩)))
  · exact .inr (.inr (.inr (.inr (.inl ⟨g, e, [], .inl rfl, microStep_failed hs hp⟩))))
  · exact .inr (.inr (.inr (.inr (.inl ⟨_, e, _, .inr ⟨f, k, hu, rfl⟩, microStep_failed hs hp⟩))))
  · exact .inr (.inr (.inr (.inr (.inr (microStep_hung hs hp)))))

/-! ### A command by its parts -/

/-- What a command does at acceptance, before its micro-operations (R19, R101). -/
def immediateOf : Instr → State → State
  | .setspd hz => State.setSpeedHz hz
  | _ => id

/-- The buffer a command hands back (R92). -/
def resultOf : Instr → Option (List Pixel)
  | .pack _ _ inbuf => some (inbuf.map packPixel)
  | _ => none

/-- The micro-operations a command expands to (R19). -/
def expansionOf : Instr → List MicroOp
  | .wridx addr => expandWridx addr
  | .wrdat value => expandWrdat value
  | .wrreg addr value => expandWrreg addr value
  | .strm _ _ buf => expandStrm buf
  | .rstp => expandRstp
  | .pack _ _ _ | .setspd _ => []
  | .idxframe _ | .datframe _ | .gramsel | .pixframe _ => []

theorem exec_command {i : Instr} (h : i.isCommand = true) (s : State) :
    exec i s = .next (runCommand i.payloadOk (immediateOf i) (resultOf i) (expansionOf i) s) := by
  cases i with
  | idxframe _ | datframe _ | gramsel | pixframe _ => nomatch h
  | _ => rfl

theorem exec_frame {i : Instr} (h : i.isCommand = false) (s : State) : exec i s = .next (frameEffect i s) := by
  cases i with
  | wridx _ | wrdat _ | wrreg _ _ | strm _ _ _ | rstp | pack _ _ _ | setspd _ => nomatch h
  | _ => rfl

theorem accepted_command {i : Instr} (h : i.isCommand = true) (s : State) :
    accepted i s = accept i.payloadOk (immediateOf i) (resultOf i) (expansionOf i) s := by
  cases i with
  | idxframe _ | datframe _ | gramsel | pixframe _ => nomatch h
  | _ => rfl

theorem immediateOf_cases (i : Instr) :
    immediateOf i = id ∨ ∃ hz, i = .setspd hz ∧ immediateOf i = State.setSpeedHz hz := by
  cases i with
  | setspd hz => exact .inr ⟨hz, rfl, rfl⟩
  | _ => exact .inl rfl

/-- All that acceptance can do (R19, R137): refusal, `IllegalCommand`, completion at once, or the expansion in `SEQ`. -/
theorem accept_cases (wf : Bool) (imm : State → State) (res : Option (List Pixel)) (exp : List MicroOp) (s : State) :
    (s.fault ≠ 0 ∧ accept wf imm res exp s = complete codeFaulted none s) ∨
    (s.fault = 0 ∧ accept wf imm res exp s = raise .illegalCommand s) ∨
    (s.fault = 0 ∧ exp = [] ∧ accept wf imm res exp s = complete codeNone res ((imm s).setSeq [])) ∨
    (s.fault = 0 ∧ accept wf imm res exp s = (imm s).setSeq exp) := by
  by_cases hf : s.fault = 0
  · cases wf with
    | false => exact .inr (.inl ⟨hf, by simp [accept, hf]⟩)
    | true =>
      by_cases he : exp = []
      · exact .inr (.inr (.inl ⟨hf, he, by simp [accept, hf, he]⟩))
      · exact .inr (.inr (.inr ⟨hf, by simp [accept, hf, he]⟩))
  · exact .inl ⟨hf, if_pos hf⟩

end Sys2Proof.Machine
end

section
/-! SUPPORT. The big step of a command is its small steps (10_state.md R14): no micro-operation reads `SEQ`, so the
whole expansion performed at once and the sequencer's steps meet the same states. -/

namespace Sys2Proof.Machine

/-! ### What the controller does is the same whatever is left in `SEQ` -/

theorem selectIndex_setSeq (a : U16) (l : List MicroOp) (s : State) :
    selectIndex a (s.setSeq l) = (selectIndex a s).setSeq l := by
  unfold selectIndex
  split <;> rfl

theorem receiveData_setSeq (v : U16) (l : List MicroOp) (s : State) :
    receiveData v (s.setSeq l) = (receiveData v s).setSeq l := by
  unfold receiveData
  rw [State.setSeq_ctrl]
  split <;> rfl

theorem writePixels_setSeq (ps : List Pixel) (l : List MicroOp) (s : State) :
    writePixels ps (s.setSeq l) = (writePixels ps s).setSeq l := by
  induction ps generalizing s with
  | nil => rfl
  | cons p ps ih => exact ih (writePixel p s)

theorem receiveStream_setSeq (ps : List Pixel) (l : List MicroOp) (s : State) :
    receiveStream ps (s.setSeq l) = (receiveStream ps s).setSeq l := by
  match ps with
  | [] => rfl
  | [v] => exact receiveData_setSeq v l s
  | p :: q :: qs =>
    simp only [receiveStream, State.setSeq_ctrl, apply_ite (State.setSeq l), writePixels_setSeq]
    rfl

theorem frameEffect_setSeq (i : Instr) (l : List MicroOp) (s : State) :
    frameEffect i (s.setSeq l) = (frameEffect i s).setSeq l := by
  cases i with
  | idxframe a => exact selectIndex_setSeq a l s
  | gramsel => exact selectIndex_setSeq Config.gramReg l s
  | datframe v => exact receiveData_setSeq v l s
  | pixframe ps => exact receiveStream_setSeq ps l s
  | _ => rfl

theorem receiveFrame_setSeq (f : List Byte) (l : List MicroOp) (s : State) :
    receiveFrame f (s.setSeq l) = (receiveFrame f s).setSeq l := by
  cases h : decodeFrame f with
  | error e => rw [receiveFrame_error h, receiveFrame_error h]; rfl
  | ok i => rw [receiveFrame_ok h, receiveFrame_ok h, frameEffect_setSeq]

theorem emit_setSeq (e : Event) (l : List MicroOp) (s : State) : emit e (s.setSeq l) = (emit e s).setSeq l := by
  cases e with
  | cs d =>
    cases d with
    | low => rfl
    | high =>
      cases h : s.ctrl.rx with
      | none => simp [emit, observe, h]; rfl
      | some f => rw [emit_csHigh (s := s.setSeq l) h, emit_csHigh h, ← receiveFrame_setSeq]; rfl
  | rst d => cases d <;> rfl
  | tx b => rfl
  | wait ms => rfl
  | fail k => rfl

theorem emitBytes_setSeq (f : List Byte) (l : List MicroOp) (s : State) :
    emitBytes f (s.setSeq l) = (emitBytes f s).setSeq l := by
  induction f generalizing s with
  | nil => rfl
  | cons b f ih => rw [emitBytes, emit_setSeq, ih, emitBytes]

theorem failCommand_setSeq (g : Failure) (l : List MicroOp) (s : State) :
    failCommand g (s.setSeq l) = failCommand g s := by
  let t := (openDownstream s).setFault (recordFault s.fault g.code)
  change complete g.code none ((emit (.fail g.code) (t.setSeq l)).setSeq []) =
    complete g.code none ((emit (.fail g.code) t).setSeq [])
  rw [emit_setSeq]
  rfl

/-! ### The expansion at once, and one step at a time -/

/-- The same outcome, with something else left in `SEQ`. -/
def Performed.withSeq (l : List MicroOp) : Performed → Performed
  | .done t => .done (t.setSeq l)
  | .failed f t => .failed f (t.setSeq l)
  | .hung => .hung

theorem perform_setSeq (u : MicroOp) (l : List MicroOp) (s : State) :
    perform u (s.setSeq l) = (perform u s).withSeq l := by
  cases u with
  | driveCs d =>
    rcases h : askGpio s.env with ⟨a, e⟩
    cases a <;> simp [perform, driveCs, h, Performed.withSeq, ← emit_setSeq] <;> rfl
  | driveRst d =>
    rcases h : askGpio s.env with ⟨a, e⟩
    cases a <;> simp [perform, driveRst, h, Performed.withSeq, ← emit_setSeq] <;> rfl
  | txFrame f =>
    rcases h : askXfer s.env with ⟨a, e⟩
    cases a <;> simp [perform, txFrame, h, Performed.withSeq, ← emitBytes_setSeq] <;> rfl
  | wait ms => exact congrArg Performed.done (emit_setSeq _ l s)

theorem performAll_setSeq (u : MicroOp) (rest l : List MicroOp) (s : State) :
    performAll (u :: rest) (s.setSeq l) = performAll (u :: rest) s := by
  induction rest generalizing u s with
  | nil =>
    simp only [performAll, perform_setSeq]
    cases perform u s with
    | done t => rfl
    | failed f t => exact failCommand_setSeq f l t
    | hung => rfl
  | cons v rest ih =>
    rw [performAll, performAll, perform_setSeq]
    cases perform u s with
    | done t => exact ih v t
    | failed f t => exact failCommand_setSeq f l t
    | hung => rfl

theorem microSteps_hung {s : State} (h : microStep s = s) (n : Nat) : microSteps n s = s := by
  induction n with
  | zero => rfl
  | succ n ih => rw [microSteps, h, ih]

/-- R14: the expansion as one big step, and as that many steps of the sequencer. -/
theorem microSteps_eq_performAll {l : List MicroOp} {s : State} (hs : s.seq = l) :
    microSteps l.length s = performAll l s := by
  induction l generalizing s with
  | nil => rfl
  | cons u rest ih =>
    rw [List.length_cons, microSteps, performAll]
    cases hp : perform u s with
    | done t =>
      rw [microStep_done hs hp, ih (advance_seq rest t)]
      cases rest with
      | nil => rfl
      | cons v rest => exact performAll_setSeq v rest (v :: rest) t
    | failed f t =>
      rw [microStep_failed hs hp]
      exact microSteps_idle (failCommand_seq f t) _
    | hung =>
      rw [microStep_hung hs hp, microSteps_hung (microStep_hung hs hp), ← hs]
      rfl

theorem runCommand_eq_microSteps (wf : Bool) (imm : State → State) (res : Option (List Pixel)) (exp : List MicroOp)
    {s : State} (hs : s.seq = []) : runCommand wf imm res exp s =
      microSteps (accept wf imm res exp s).seq.length (accept wf imm res exp s) := by
  rw [microSteps_eq_performAll rfl, runCommand, if_pos hs]

end Sys2Proof.Machine
end

section
/-! SUPPORT. The trace event by event: which event may follow a trace that keeps the rules of 10_state.md R25, and what
the next micro-operation of a command is, given that what remains of it fits the chip-select level. -/

namespace Sys2Proof.Machine

/-! ### Appending events -/

/-- A list with one more element at its end, cut at an element: the cut is at the end, or in the list as it was. -/
theorem append_singleton_eq_append_cons {α : Type} {l pre post : List α} {e x : α}
    (h : l ++ [e] = pre ++ x :: post) :
    (post = [] ∧ pre = l ∧ x = e) ∨ ∃ q, post = q ++ [e] ∧ l = pre ++ x :: q := by
  rcases List.eq_nil_or_concat' post with rfl | ⟨q, y, rfl⟩
  · obtain ⟨rfl, h⟩ := List.append_inj' h rfl
    exact .inl ⟨rfl, rfl, by simpa using h.symm⟩
  · have h' : l ++ [e] = (pre ++ x :: q) ++ [y] := by simpa using h
    obtain ⟨rfl, h⟩ := List.append_inj' h' rfl
    exact .inr ⟨q, by simpa using h.symm, rfl⟩

theorem levelFrom_append (l : Level) (tr es : List Event) :
    levelFrom l (tr ++ es) = levelFrom (levelFrom l tr) es := by
  induction tr generalizing l with
  | nil => rfl
  | cons e tr ih => cases e <;> exact ih _

@[simp] theorem levelFrom_tx (l : Level) (f : List Byte) : levelFrom l (f.map .tx) = l := by
  induction f with
  | nil => rfl
  | cons b f ih => exact ih

@[simp] theorem Level.flip_flip (l : Level) : l.flip.flip = l := by cases l <;> rfl

/-- No failure has left its event. -/
def NoFail (tr : List Event) : Prop := ∀ k, Event.fail k ∉ tr

theorem NoFail.append {tr es : List Event} (h : NoFail tr) (h' : NoFail es) : NoFail (tr ++ es) := fun k hk =>
  (List.mem_append.mp hk).elim (h k) (h' k)

theorem noFail_tx (f : List Byte) : NoFail (f.map .tx) := fun k => by simp

/-! ### The rules of R25 -/

/-- The items of R25 that speak of the trace alone. -/
structure TraceInv (tr : List Event) : Prop where
  csAlternates : alternates .low (csLevels tr) = true
  txInBracket : TxInBracket tr
  startByte : StartByteFirst tr
  rstWait : RstWaitOutside tr
  failEnds : FailEnds tr

/-- The event may follow this trace, in which nothing has failed. -/
def MayFollow (tr : List Event) : Event → Prop
  | .cs l => l = (levelFrom .high tr).flip
  | .rst _ | .wait _ => levelFrom .high tr = .high
  | .tx b => levelFrom .high tr = .low ∧ ((b = 0x70 ∨ b = 0x72) ∨ ∃ b', tr.getLast? = some (.tx b'))
  | .fail _ => True

theorem traceInv_nil : TraceInv [] where
  csAlternates := rfl
  txInBracket pre b post h := by simp at h
  startByte pre mid b post h := by simp at h
  rstWait pre e post h := by simp at h
  failEnds pre k post h := by simp at h

/-- Chip-select drives that take turns go on so with a drive to the level other than the one the trace has left. -/
theorem alternates_append_cs {l d : Level} {tr : List Event} (h : alternates l.flip (csLevels tr) = true)
    (hd : d = (levelFrom l tr).flip) : alternates l.flip (csLevels (tr ++ [.cs d])) = true := by
  induction tr generalizing l with
  | nil => simpa [csLevels, alternates, levelFrom] using hd.symm
  | cons e tr ih =>
    cases e with
    | cs l' =>
      simp only [csLevels, List.filterMap_cons, alternates, Bool.and_eq_true, decide_eq_true_eq, Level.flip_flip,
        List.cons_append] at h ⊢
      obtain ⟨rfl, h⟩ := h
      refine ⟨rfl, ?_⟩
      have := ih (l := l.flip) (by simpa [csLevels] using h) hd
      simpa [csLevels] using this
    | rst _ | tx _ | wait _ | fail _ => exact ih h hd

theorem csAlternates_append {tr : List Event} {e : Event} (h : alternates .low (csLevels tr) = true)
    (he : MayFollow tr e) : alternates .low (csLevels (tr ++ [e])) = true := by
  cases e with
  | cs d => exact alternates_append_cs (l := .high) h he
  | rst _ | tx _ | wait _ | fail _ => simpa [csLevels] using h

theorem TxInBracket.append {tr : List Event} {e : Event} (h : TxInBracket tr) (he : MayFollow tr e) :
    TxInBracket (tr ++ [e]) := by
  intro pre b post hp
  rcases append_singleton_eq_append_cons hp with ⟨-, rfl, rfl⟩ | ⟨q, -, hq⟩
  · exact he.1
  · exact h pre b q hq

theorem StartByteFirst.append {tr : List Event} {e : Event} (h : StartByteFirst tr) (he : MayFollow tr e) :
    StartByteFirst (tr ++ [e]) := by
  intro pre mid b post hp hmid
  rw [← List.cons_append, ← List.append_assoc] at hp
  rcases append_singleton_eq_append_cons hp with ⟨-, rfl, rfl⟩ | ⟨q, -, hq⟩
  · rcases he.2 with hb | ⟨b', hlast⟩
    · exact hb
    · rcases List.eq_nil_or_concat' mid with rfl | ⟨m, y, rfl⟩
      · simp at hlast
      · rw [← List.cons_append, ← List.append_assoc, List.getLast?_concat] at hlast
        obtain rfl : y = .tx b' := Option.some.inj hlast
        simp [Event.isOther] at hmid
  · exact h pre mid b q (by simpa using hq) hmid

theorem RstWaitOutside.append {tr : List Event} {e : Event} (h : RstWaitOutside tr) (he : MayFollow tr e) :
    RstWaitOutside (tr ++ [e]) := by
  intro pre x post hp hx
  rcases append_singleton_eq_append_cons hp with ⟨-, rfl, rfl⟩ | ⟨q, -, hq⟩
  · cases x with
    | rst _ | wait _ => exact he
    | cs _ | tx _ | fail _ => nomatch hx
  · exact h pre x q hq hx

theorem FailEnds.append {tr : List Event} (hn : NoFail tr) (e : Event) : FailEnds (tr ++ [e]) := by
  intro pre k post hp
  rcases append_singleton_eq_append_cons hp with ⟨hpost, -, -⟩ | ⟨q, -, hq⟩
  · exact hpost
  · exact absurd (by simp [hq]) (hn k)

theorem TraceInv.append {tr : List Event} {e : Event} (h : TraceInv tr) (hn : NoFail tr) (he : MayFollow tr e) :
    TraceInv (tr ++ [e]) :=
  ⟨csAlternates_append h.csAlternates he, h.txInBracket.append he, h.startByte.append he, h.rstWait.append he,
    FailEnds.append hn e⟩

/-- The bytes may go out after this trace: there are none, or a bracket is open and the first is a start byte, or a byte
went out before them. -/
def BytesMayFollow (tr : List Event) (f : List Byte) : Prop := ∀ b ∈ f.head?, MayFollow tr (.tx b)

theorem TraceInv.append_tx {tr : List Event} {f : List Byte} (h : TraceInv tr) (hn : NoFail tr)
    (hf : BytesMayFollow tr f) : TraceInv (tr ++ f.map .tx) := by
  induction f generalizing tr with
  | nil => simpa using h
  | cons b f ih =>
    have hb : MayFollow tr (.tx b) := hf b rfl
    have hlevel : levelFrom .high (tr ++ [.tx b]) = .low := by rw [levelFrom_append]; exact hb.1
    have := ih (h.append hn hb) (hn.append (noFail_tx [b])) fun b' _ => ⟨hlevel, .inr ⟨b, by simp⟩⟩
    simpa using this

/-! ### What remains of a command -/

theorem seqOk_nil {l : Level} {fr : Bool} (h : seqOk l fr [] = true) : l = .high := by
  cases l with
  | high => rfl
  | low => simp [seqOk] at h

theorem seqOk_driveCs {l d : Level} {fr : Bool} {r : List MicroOp} (h : seqOk l fr (.driveCs d :: r) = true) :
    d = l.flip ∧ seqOk d (decide (d = .low)) r = true := by
  cases l with
  | high =>
    cases d with
    | high => simp [seqOk] at h
    | low => exact ⟨rfl, by simpa [seqOk] using h⟩
  | low =>
    cases fr with
    | true => simp [seqOk] at h
    | false =>
      cases d with
      | high => exact ⟨rfl, by simpa [seqOk] using h⟩
      | low => simp [seqOk] at h

theorem seqOk_driveRst {l d : Level} {fr : Bool} {r : List MicroOp} (h : seqOk l fr (.driveRst d :: r) = true) :
    l = .high ∧ seqOk .high false r = true := by
  cases l with
  | high => exact ⟨rfl, by simpa [seqOk] using h⟩
  | low => simp [seqOk] at h

theorem seqOk_wait {l : Level} {fr : Bool} {ms : Nat} {r : List MicroOp} (h : seqOk l fr (.wait ms :: r) = true) :
    l = .high ∧ seqOk .high false r = true := by
  cases l with
  | high => exact ⟨rfl, by simpa [seqOk] using h⟩
  | low => simp [seqOk] at h

theorem seqOk_txFrame {l : Level} {fr : Bool} {f : List Byte} {r : List MicroOp}
    (h : seqOk l fr (.txFrame f :: r) = true) :
    l = .low ∧ startsFrame f = true ∧ seqOk .low false r = true := by
  cases l with
  | high => simp [seqOk] at h
  | low =>
    cases fr with
    | false => simp [seqOk] at h
    | true => exact ⟨rfl, by simpa [seqOk] using h⟩

theorem startsFrame_head {f : List Byte} (h : startsFrame f = true) : ∃ b g, f = b :: g ∧ (b = 0x70 ∨ b = 0x72) := by
  cases f with
  | nil => nomatch h
  | cons b g => exact ⟨b, g, rfl, by simpa [startsFrame] using h⟩

/-- A frame, or what was sent of one before it failed, may go out in an open bracket. -/
theorem bytesMayFollow_take {tr : List Event} {f : List Byte} (hl : levelFrom .high tr = .low)
    (hf : startsFrame f = true) (k : Nat) : BytesMayFollow tr (f.take k) := by
  obtain ⟨b, g, rfl, hb⟩ := startsFrame_head hf
  cases k with
  | zero => intro b' h'; simp at h'
  | succ k =>
    intro b' h'
    obtain rfl : b = b' := by simpa using h'
    exact ⟨hl, .inl hb⟩

theorem freshBracket_cs (tr : List Event) (d : Level) : freshBracket (tr ++ [.cs d]) = decide (d = .low) := by
  simp [freshBracket]

theorem freshBracket_rst (tr : List Event) (d : Level) : freshBracket (tr ++ [.rst d]) = false := by
  simp [freshBracket]

theorem freshBracket_wait (tr : List Event) (ms : Nat) : freshBracket (tr ++ [.wait ms]) = false := by
  simp [freshBracket]

theorem freshBracket_tx (tr : List Event) {f : List Byte} (hf : startsFrame f = true) :
    freshBracket (tr ++ f.map .tx) = false := by
  have hne : f.map Event.tx ≠ [] := by
    obtain ⟨b, g, rfl, -⟩ := startsFrame_head hf
    simp
  simp only [freshBracket, decide_eq_false_iff_not, List.getLast?_append_of_ne_nil _ hne]
  intro h
  simpa using List.mem_of_getLast? h

/-- The expansion of every command fits chip-select inactive, and leaves the reset line inactive. -/
theorem expansionOf_fits (i : Instr) : (∀ fr, seqOk .high fr (expansionOf i) = true) ∧
    rstAfter .high (expansionOf i) = .high := by
  cases i <;> exact ⟨fun fr => by cases fr <;> rfl, rfl⟩

end Sys2Proof.Machine
end

section
/-! SUPPORT. What a step can do and what no step takes back: the controller's memories stay in canonical form (20_memory.md
R31, R33), the sequencer and acceptance only go forward, and a step is one of four kinds (10_state.md R19, R24). -/

namespace Sys2Proof.Machine

/-! ### The controller's memories -/

/-- The controller's memories are in canonical form, and register indices have 16 bits. -/
structure MemInv (c : Controller) : Prop where
  regsWf : Memory.wf c.regs
  regsRange : ∀ e ∈ c.regs, e.1 < 65536
  gramWf : Memory.wf c.gram

theorem memInv_reset : MemInv Controller.reset := ⟨Memory.wf_nil, fun _ h => (nomatch h), Memory.wf_nil⟩

theorem memInv_openController (n : Nat) (rx : Option (List Byte)) : MemInv (openController n rx) where
  regsWf := Memory.writeAll_wf Memory.wf_nil _
  regsRange e he := by
    rcases Memory.mem_writeAll he with he | he
    · obtain ⟨w, -, rfl⟩ := List.mem_map.mp he
      exact w.1.isLt
    · nomatch he
  gramWf := Memory.writeAll_wf Memory.wf_nil _

theorem MemInv.selectIndex {s : State} (h : MemInv s.ctrl) (a : U16) : MemInv (selectIndex a s).ctrl := by
  rw [selectIndex_ctrl]
  exact ⟨h.regsWf, h.regsRange, h.gramWf⟩

theorem MemInv.receiveData {s : State} (h : MemInv s.ctrl) (v : U16) : MemInv (receiveData v s).ctrl := by
  by_cases hs : s.ctrl.sel = 0x0022
  · rw [receiveData_pixel v hs]
    exact ⟨h.regsWf, h.regsRange, Memory.write_wf h.gramWf _ _⟩
  · rw [receiveData_register v hs]
    refine ⟨Memory.write_wf h.regsWf _ _, fun e he => ?_, h.gramWf⟩
    rcases Memory.mem_write.mp he with ⟨rfl, -⟩ | ⟨he, -⟩
    · exact s.ctrl.sel.isLt
    · exact h.regsRange e he

theorem MemInv.writePixels {s : State} (h : MemInv s.ctrl) (ps : List Pixel) : MemInv (writePixels ps s).ctrl := by
  obtain ⟨hgram, hregs, -⟩ := writePixels_ctrl ps s
  exact ⟨hregs ▸ h.regsWf, hregs ▸ h.regsRange, hgram ▸ Memory.writeAll_wf h.gramWf _⟩

theorem MemInv.receiveStream {s : State} (h : MemInv s.ctrl) (ps : List Pixel) :
    MemInv (receiveStream ps s).ctrl := by
  unfold Machine.receiveStream
  split
  · exact memInv_openController _ _
  · exact h.receiveData _
  · split
    · exact h.writePixels _
    · exact memInv_openController _ _

theorem MemInv.frameEffect {s : State} (h : MemInv s.ctrl) (i : Instr) : MemInv (frameEffect i s).ctrl := by
  cases i with
  | idxframe a => exact h.selectIndex a
  | gramsel => exact h.selectIndex Config.gramReg
  | datframe v => exact h.receiveData v
  | pixframe ps => exact h.receiveStream ps
  | _ => exact memInv_openController _ _

theorem MemInv.receiveFrame {s : State} (h : MemInv s.ctrl) (f : List Byte) : MemInv (receiveFrame f s).ctrl := by
  cases hd : decodeFrame f with
  | error e => exact receiveFrame_error hd s ▸ memInv_openController _ _
  | ok i => exact receiveFrame_ok hd s ▸ h.frameEffect i

theorem MemInv.emit {s : State} (h : MemInv s.ctrl) (e : Event) : MemInv (emit e s).ctrl := by
  have hrx : ∀ rx, MemInv { s.ctrl with rx := rx } := fun _ => ⟨h.regsWf, h.regsRange, h.gramWf⟩
  cases e with
  | cs d =>
    cases d with
    | low => exact hrx _
    | high =>
      cases hs : s.ctrl.rx with
      | none => simpa [Machine.emit, observe, hs] using h
      | some f => exact emit_csHigh hs ▸ MemInv.receiveFrame (s := (s.pushTrace _).setCtrl _) (hrx none) f
  | rst d =>
    cases d with
    | low => exact memInv_openController _ _
    | high => exact h
  | tx b => exact hrx _
  | wait ms => exact h
  | fail k => exact h

theorem MemInv.emitBytes {s : State} (h : MemInv s.ctrl) (f : List Byte) : MemInv (emitBytes f s).ctrl := by
  rw [emitBytes_ctrl]
  exact ⟨h.regsWf, h.regsRange, h.gramWf⟩

/-! ### What is never taken back -/

theorem HostSame.trans {s t u : State} (h : HostSame s t) (h' : HostSame t u) : HostSame s u := by
  obtain ⟨hi, hh, hd, hl⟩ := h
  obtain ⟨hi', hh', hd', hl'⟩ := h'
  exact ⟨hi'.trans hi, hh'.trans hh, hd'.trans hd, hl'.trans hl⟩

/-- The block went forward: events were only added, and the open session and the host's state are as before. -/
structure Forward (s t : State) : Prop where
  trace : s.trace <+: t.trace
  speedActive : t.speedActive = s.speedActive
  spiMode : t.spiMode = s.spiMode
  host : HostSame s t

theorem Forward.refl (s : State) : Forward s s := ⟨List.prefix_rfl, rfl, rfl, rfl, rfl, rfl, rfl⟩

theorem Forward.trans {s t u : State} (h : Forward s t) (h' : Forward t u) : Forward s u :=
  ⟨h.trace.trans h'.trace, h'.speedActive.trans h.speedActive, h'.spiMode.trans h.spiMode, h.host.trans h'.host⟩

theorem DownstreamOnly.blockSame {s t : State} (h : DownstreamOnly s t) : BlockSame s t := by
  rw [h]
  simp [BlockSame, SpeedSame, HostSame]

theorem DownstreamOnly.forward {s t : State} (h : DownstreamOnly s t) : Forward s t := by
  rw [h]
  exact ⟨List.prefix_rfl, rfl, rfl, rfl, rfl, rfl, rfl⟩

theorem microStep_forward (s : State) : Forward s (microStep s) := by
  cases hs : s.seq with
  | nil => rw [microStep_idle hs]; exact Forward.refl s
  | cons u rest =>
    rcases microStep_cases hs with ⟨l, e, -, h⟩ | ⟨l, e, -, h⟩ | ⟨f, e, -, h⟩ | ⟨ms, -, h⟩ | ⟨g, e, sent, -, h⟩ | h <;>
      rw [h] <;> constructor <;> simp [HostSame]

theorem microSteps_forward (n : Nat) (s : State) : Forward s (microSteps n s) := by
  induction n generalizing s with
  | zero => exact Forward.refl s
  | succ n ih => exact (microStep_forward s).trans (ih _)

@[simp] theorem microStep_speedHz (s : State) : (microStep s).speedHz = s.speedHz := by
  cases hs : s.seq with
  | nil => rw [microStep_idle hs]
  | cons u rest =>
    rcases microStep_cases hs with ⟨l, e, -, h⟩ | ⟨l, e, -, h⟩ | ⟨f, e, -, h⟩ | ⟨ms, -, h⟩ | ⟨g, e, sent, -, h⟩ | h <;>
      rw [h] <;> simp

theorem microSteps_speedHz (n : Nat) (s : State) : (microSteps n s).speedHz = s.speedHz := by
  induction n generalizing s with
  | zero => rfl
  | succ n ih => rw [microSteps, ih, microStep_speedHz]

/-- No drive of the reset line is left in `SEQ`. -/
def NoRstLeft (s : State) : Prop := ∀ l, MicroOp.driveRst l ∉ s.seq

theorem microStep_rstN {s : State} (hn : NoRstLeft s) : (microStep s).rstN = s.rstN ∧ NoRstLeft (microStep s) := by
  cases hs : s.seq with
  | nil => rw [microStep_idle hs]; exact ⟨rfl, hn⟩
  | cons u rest =>
    have hrest : ∀ l, MicroOp.driveRst l ∉ rest := fun l hl => hn l (hs ▸ List.mem_cons_of_mem u hl)
    rcases microStep_cases hs with ⟨l, e, -, h⟩ | ⟨l, e, rfl, h⟩ | ⟨f, e, -, h⟩ | ⟨ms, -, h⟩ | ⟨g, e, sent, -, h⟩ | h
    · exact h ▸ ⟨by simp, by simpa [NoRstLeft] using hrest⟩
    · exact absurd (by simp [hs]) (hn l)
    · exact h ▸ ⟨by simp, by simpa [NoRstLeft] using hrest⟩
    · exact h ▸ ⟨by simp, by simpa [NoRstLeft] using hrest⟩
    · exact h ▸ ⟨by simp, by simp [NoRstLeft]⟩
    · exact h.symm ▸ ⟨rfl, hn⟩

theorem microSteps_rstN (n : Nat) {s : State} (hn : NoRstLeft s) : (microSteps n s).rstN = s.rstN := by
  induction n generalizing s with
  | zero => rfl
  | succ n ih =>
    obtain ⟨hr, hn'⟩ := microStep_rstN hn
    rw [microSteps, ih hn', hr]

/-! ### A command presented, legal or not -/

/-- What acceptance is given: an immediate effect on `SPEED_HZ` at most, and an expansion that fits chip-select inactive and
leaves the reset line inactive. -/
structure CommandParts (imm : State → State) (exp : List MicroOp) : Prop where
  immediate : imm = id ∨ ∃ hz, imm = State.setSpeedHz hz
  fits : ∀ fr, seqOk .high fr exp = true
  rstInactive : rstAfter .high exp = .high

theorem commandParts_of (i : Instr) : CommandParts (immediateOf i) (expansionOf i) :=
  ⟨(immediateOf_cases i).imp_right fun ⟨hz, _, h⟩ => ⟨hz, h⟩, (expansionOf_fits i).1, (expansionOf_fits i).2⟩

theorem commandParts_illegal : CommandParts id [] := ⟨.inl rfl, fun fr => by cases fr <;> rfl, rfl⟩

theorem accept_forward {imm : State → State} {exp : List MicroOp} (hc : CommandParts imm exp) (wf : Bool)
    (res : Option (List Pixel)) (s : State) : Forward s (accept wf imm res exp s) := by
  have himm : Forward s (imm s) := by
    rcases hc.immediate with rfl | ⟨hz, rfl⟩ <;> exact ⟨List.prefix_rfl, rfl, rfl, rfl, rfl, rfl, rfl⟩
  rcases accept_cases wf imm res exp s with ⟨-, h⟩ | ⟨-, h⟩ | ⟨-, -, h⟩ | ⟨-, h⟩ <;> rw [h]
  · exact ⟨List.prefix_rfl, rfl, rfl, rfl, rfl, rfl, rfl⟩
  · constructor <;> simp [HostSame]
  · exact ⟨himm.trace, himm.speedActive, himm.spiMode, himm.host⟩
  · exact ⟨himm.trace, himm.speedActive, himm.spiMode, himm.host⟩

theorem runCommand_forward {imm : State → State} {exp : List MicroOp} (hc : CommandParts imm exp) (wf : Bool)
    (res : Option (List Pixel)) (s : State) : Forward s (runCommand wf imm res exp s) := by
  by_cases hs : s.seq = []
  · rw [runCommand_eq_microSteps wf imm res exp hs]
    exact (accept_forward hc wf res s).trans (microSteps_forward _ _)
  · rw [runCommand_notReady hs]; exact Forward.refl s

theorem runCommand_speedHz (wf : Bool) (res : Option (List Pixel)) (exp : List MicroOp) (s : State) :
    (runCommand wf id res exp s).speedHz = s.speedHz := by
  by_cases hs : s.seq = []
  · rw [runCommand_eq_microSteps wf id res exp hs, microSteps_speedHz]
    rcases accept_cases wf id res exp s with ⟨-, h⟩ | ⟨-, h⟩ | ⟨-, -, h⟩ | ⟨-, h⟩ <;> rw [h] <;> simp
  · rw [runCommand_notReady hs]

/-- A command whose expansion has no drive of the reset line leaves the line as it is. -/
theorem runCommand_rstN {imm : State → State} {exp : List MicroOp} (hc : CommandParts imm exp)
    (hn : ∀ l, MicroOp.driveRst l ∉ exp) (wf : Bool) (res : Option (List Pixel)) (s : State) :
    (runCommand wf imm res exp s).rstN = s.rstN := by
  by_cases hs : s.seq = []
  · have himm : (imm s).rstN = s.rstN := by rcases hc.immediate with rfl | ⟨hz, rfl⟩ <;> rfl
    have ha : (accept wf imm res exp s).rstN = s.rstN ∧ NoRstLeft (accept wf imm res exp s) := by
      rcases accept_cases wf imm res exp s with ⟨-, h⟩ | ⟨-, h⟩ | ⟨-, -, h⟩ | ⟨-, h⟩ <;> rw [h]
      · exact ⟨rfl, by simp [NoRstLeft, hs]⟩
      · exact ⟨by simp, by simp [NoRstLeft]⟩
      · exact ⟨himm, by simp [NoRstLeft]⟩
      · exact ⟨himm, hn⟩
    rw [runCommand_eq_microSteps wf imm res exp hs, microSteps_rstN _ ha.2, ha.1]
  · rw [runCommand_notReady hs]

theorem expansionOf_noRst {i : Instr} (h : i ≠ .rstp) (l : Level) : MicroOp.driveRst l ∉ expansionOf i := by
  cases i with
  | rstp => exact absurd rfl h
  | _ => simp [expansionOf, expandWridx, expandWrdat, expandWrreg, expandStrm, bracket]

/-- What is given to the machine is a command, legal or not, and this is what becomes of it. -/
def Commanded (s t : State) : Prop :=
  ∃ wf imm res exp, CommandParts imm exp ∧ t = runCommand wf imm res exp s

/-- What is given to the machine is a frame, and this is what becomes of it. -/
def Framed (s t : State) : Prop := DownstreamOnly s t ∧ (MemInv s.ctrl → MemInv t.ctrl)

theorem framed_openDownstream (s : State) : Framed s (openDownstream s) :=
  ⟨openDownstream_only s, fun _ => memInv_openController _ _⟩

theorem exec_kind {i : Instr} {s t : State} (h : exec i s = .next t) : Commanded s t ∨ Framed s t := by
  cases hi : i.isCommand with
  | true =>
    rw [exec_command hi] at h
    cases h
    exact .inl ⟨_, _, _, _, commandParts_of i, rfl⟩
  | false =>
    rw [exec_frame hi] at h
    cases h
    exact .inr ⟨frameEffect_only i s, fun hm => hm.frameEffect i⟩

theorem runPacket_kind {p : Packet} {s t : State} (h : runPacket p s = .next t) : Commanded s t ∨ Framed s t := by
  unfold runPacket at h
  split at h
  · exact exec_kind h
  · cases p with
    | command bytes => cases h; exact .inl ⟨_, _, _, _, commandParts_illegal, rfl⟩
    | frame bytes => cases h; exact .inr (framed_openDownstream s)

theorem given_forward {s t : State} (h : Commanded s t ∨ Framed s t) : Forward s t := by
  rcases h with ⟨wf, imm, res, exp, hc, rfl⟩ | ⟨h, -⟩
  · exact runCommand_forward hc wf res s
  · exact h.forward

/-! ### The four kinds of step -/

/-- Only the host's own state may differ. -/
def HostOnly (s t : State) : Prop :=
  t = { s with drv := t.drv, hostSeq := t.hostSeq, inbox := t.inbox, hostLog := t.hostLog }

/-- No step of the list waits inside an acquisition of block reset. -/
def NoAcquire (l : List HostStep) : Prop := ∀ h ∈ l, h.isAcquire = false

/-- What a step of the machine can be. -/
inductive StepKind (s t : State) : Prop
  /-- A step of the sequencer. -/
  | sequencer (hs : s.seq ≠ []) (ht : t = microStep s)
  /-- A command or a frame is taken, from the host sequence or from what is presented. -/
  | given (u : State) (hs : s.seq = []) (hu : HostOnly s u) (hseq : u.hostSeq = s.hostSeq.tail)
      (ht : Commanded u t ∨ Framed u t)
  /-- Only the host goes on; what it has to do next begins no acquisition. -/
  | host (hs : s.seq = []) (ht : HostOnly s t) (hseq : NoAcquire s.hostSeq.tail → NoAcquire t.hostSeq)
  /-- Block reset begins. -/
  | reset (hz : U32) (rest : List HostStep) (hs : s.seq = []) (hh : s.hostSeq = .blockReset hz :: rest)
      (ht : t = blockReset hz (s.setHostSeq rest))
  /-- Block reset goes on inside an acquisition. -/
  | acquire (rs : List Resource) (rest : List HostStep) (hs : s.seq = []) (hh : s.hostSeq = .acquire rs :: rest)
      (ht : t = acquireAll rs (s.setHostSeq rest))

@[simp] theorem noAcquire_nil : NoAcquire [] := fun _ h => nomatch h

@[simp] theorem noAcquire_cons (x : HostStep) (l : List HostStep) :
    NoAcquire (x :: l) ↔ x.isAcquire = false ∧ NoAcquire l := List.forall_mem_cons

@[simp] theorem noAcquire_append (l l' : List HostStep) : NoAcquire (l ++ l') ↔ NoAcquire l ∧ NoAcquire l' :=
  List.forall_mem_append

@[simp] theorem noAcquire_giveChecked (h : OnFail) (i : Instr) : NoAcquire (giveChecked h i) := by
  simp [giveChecked, HostStep.isAcquire]

theorem noAcquire_initSeq (p : HostParams) : NoAcquire ((initSeq p).flatMap initItemSteps) := by
  intro x hx
  obtain ⟨item, -, hx⟩ := List.mem_flatMap.mp hx
  have hitem : NoAcquire (initItemSteps item) := by cases item <;> simp [initItemSteps, HostStep.isAcquire]
  exact hitem x hx

theorem noAcquire_drawSteps (p : HostParams) (d : DrvState) (x y : Int) (buf : PixelBuffer) :
    NoAcquire (drawSteps p d x y buf) := by
  unfold drawSteps
  split <;> simp [drawRegionSteps, setWinSteps, HostStep.isAcquire]

theorem noAcquire_opSteps (p : HostParams) (d : DrvState) (op : HostOp) : NoAcquire (opSteps p d op) := by
  cases op with
  | new hz => simp [opSteps, newSteps, initSteps, HostStep.isAcquire, noAcquire_initSeq]
  | setWin x0 y0 x1 y1 => simp [opSteps, setWinSteps, HostStep.isAcquire]
  | drawRegion x y buf => exact noAcquire_drawSteps p d x y buf
  | drawFull buf => exact noAcquire_drawSteps p d 0 0 buf
  | getSize => simp [opSteps, HostStep.isAcquire]

theorem step_idle {s : State} (hs : s.seq = []) (hh : s.hostSeq = []) (hi : s.inbox = []) : step s = .next s := by
  unfold step runNext
  rw [hs, hh, hi]

theorem stepKind_hostStep {x : HostStep} {rest : List HostStep} {s t : State} (hs : s.seq = [])
    (hh : s.hostSeq = x :: rest) (h : runHostStep x (s.setHostSeq rest) = .next t) : StepKind s t := by
  have hu : HostOnly s (s.setHostSeq rest) := rfl
  have htail : (s.setHostSeq rest).hostSeq = s.hostSeq.tail := by rw [hh]; rfl
  cases x with
  | blockReset hz => cases h; exact .reset hz rest hs hh rfl
  | acquire rs => cases h; exact .acquire rs rest hs hh rfl
  | give i => exact .given _ hs hu htail (exec_kind h)
  | stream w b => exact .given _ hs hu htail (exec_kind (i := .strm w b (lastResult (s.setHostSeq rest))) h)
  | setDrv d => cases h; exact .host hs rfl fun hn => by rwa [← htail] at hn
  | delay ms => cases h; exact .host hs rfl fun hn => by rwa [← htail] at hn
  | ret r => cases h; exact .host hs rfl fun hn => by rwa [← htail] at hn
  | check c =>
    cases h
    split
    · exact .host hs rfl fun hn => by rwa [← htail] at hn
    · cases c <;> exact .host hs rfl fun _ _ hx => nomatch hx

theorem step_kind {s t : State} (h : step s = .next t) : StepKind s t := by
  cases hs : s.seq with
  | cons u rest =>
    rw [step_microStep hs] at h
    cases h
    exact .sequencer (by simp [hs]) rfl
  | nil =>
    cases hh : s.hostSeq with
    | cons x rest =>
      rw [step_hostSeq hs hh] at h
      exact stepKind_hostStep hs hh h
    | nil =>
      cases hi : s.inbox with
      | nil =>
        rw [step_idle hs hh hi] at h
        cases h
        exact .host hs rfl fun _ => by simp [hh, NoAcquire]
      | cons x rest =>
        cases x with
        | packet p =>
          rw [step_packet hs hh hi] at h
          exact .given (s.setInbox rest) hs rfl (by simp [hh]) (runPacket_kind h)
        | host op =>
          rw [step_hostOp hs hh hi] at h
          cases h
          exact .host hs rfl fun _ => noAcquire_opSteps _ _ op

/-- No step but block reset takes an event back or opens another session (R16, R17). -/
theorem step_keepsSession {s t : State} (h : step s = .next t) (hr : ¬ ResetNext s) :
    s.trace <+: t.trace ∧ t.speedActive = s.speedActive := by
  cases step_kind h with
  | sequencer hs ht =>
    subst ht
    exact ⟨(microStep_forward s).trace, (microStep_forward s).speedActive⟩
  | given u hs hu hseq ht =>
    obtain ⟨htrace, hspeed, -, -⟩ := given_forward ht
    rw [hu] at htrace hspeed
    exact ⟨htrace, hspeed⟩
  | host hs ht hseq =>
    rw [ht]
    exact ⟨List.prefix_rfl, rfl⟩
  | reset hz rest hs hh ht => exact absurd ⟨hs, _, rest, hh, rfl⟩ hr
  | acquire rs rest hs hh ht => exact absurd ⟨hs, _, rest, hh, rfl⟩ hr

end Sys2Proof.Machine
end

section
/-! SUPPORT. The invariant of the block in the parts a step keeps one by one: the lines and the trace, and the status, which is
that of a block in which nothing has failed or that of one that has stopped (10_state.md R25, 60_exceptions.md R134). -/

namespace Sys2Proof.Machine

/-! ### The parts of the invariant -/

/-- What holds of the lines, the trace and the memories, whatever is left in `SEQ`. -/
structure LinesInv (s : State) : Prop where
  spi : s.spiMode = 3
  csLevel : s.csN = levelFrom .high s.trace
  trace : TraceInv s.trace
  mem : MemInv s.ctrl

/-- Nothing has failed, and what is left in `SEQ` fits the lines. -/
structure Healthy (s : State) : Prop where
  fault : s.fault = 0
  noFail : NoFail s.trace
  seqFits : seqOk s.csN (freshBracket s.trace) s.seq = true
  rstInactive : rstAfter s.rstN s.seq = .high

/-- Something has failed, and the block has stopped. -/
structure Stopped (s : State) : Prop where
  fault : s.fault ≠ 0
  last : s.trace.getLast? = some (.fail s.fault)
  range : s.fault.toNat ≤ 4
  seq : s.seq = []

/-- The invariant of the block but for what it says of the host sequence. -/
structure CoreInv (s : State) : Prop where
  lines : LinesInv s
  status : Healthy s ∨ Stopped s

theorem CoreInv.healthy {s : State} (h : CoreInv s) (hf : s.fault = 0) : Healthy s :=
  h.status.resolve_right fun hstop => hstop.fault hf

theorem CoreInv.stopped {s : State} (h : CoreInv s) (hf : s.fault ≠ 0) : Stopped s :=
  h.status.resolve_left fun hh => hf hh.fault

theorem CoreInv.healthy_of_busy {s : State} (h : CoreInv s) (hs : s.seq ≠ []) : Healthy s :=
  h.status.resolve_right fun hstop => hs hstop.seq

theorem BlockInv.core {s : State} (h : BlockInv s) : CoreInv s where
  lines := ⟨h.spi, h.csLevel, ⟨h.csAlternates, h.txInBracket, h.startByte, h.rstWait, h.failEnds⟩,
    ⟨h.regsWf, h.regsRange, h.gramWf⟩⟩
  status := by
    by_cases hf : s.fault = 0
    · exact .inl ⟨hf, h.noFail hf, h.seqFits hf, h.rstInactive hf⟩
    · exact .inr ⟨hf, h.faultCode hf, h.faultRange, h.seqDropped hf⟩

theorem BlockInv.of_core {s : State} (h : CoreInv s)
    (hwait : ∀ rs rest, s.hostSeq = .acquire rs :: rest → s.seq = [] ∧ s.fault = 0 ∧ s.trace = [])
    (hfirst : NoAcquire s.hostSeq.tail) : BlockInv s := by
  have hrange : s.fault.toNat ≤ 4 := by
    by_cases hf : s.fault = 0
    · simp [hf]
    · exact (h.stopped hf).range
  obtain ⟨hspi, hcs, htr, hmem⟩ := h.lines
  exact
    { spi := hspi, csLevel := hcs
      csAlternates := htr.csAlternates, txInBracket := htr.txInBracket, startByte := htr.startByte
      rstWait := htr.rstWait, failEnds := htr.failEnds
      faultCode := fun hf => (h.stopped hf).last
      noFail := fun hf => (h.healthy hf).noFail
      faultRange := hrange
      seqDropped := fun hf => (h.stopped hf).seq
      seqFits := fun hf => (h.healthy hf).seqFits
      rstInactive := fun hf => (h.healthy hf).rstInactive
      resetWaits := hwait, resetFirst := hfirst
      regsWf := hmem.regsWf, regsRange := hmem.regsRange, gramWf := hmem.gramWf }

theorem BlockInv.of_noAcquire {s : State} (h : CoreInv s) (hn : NoAcquire s.hostSeq) : BlockInv s :=
  .of_core h (fun rs rest hh => nomatch hn (.acquire rs) (by simp [hh])) fun x hx => hn x (List.mem_of_mem_tail hx)

theorem BlockInv.noAcquire {s : State} (h : BlockInv s) (hs : s.seq ≠ []) : NoAcquire s.hostSeq := by
  cases hh : s.hostSeq with
  | nil => exact noAcquire_nil
  | cons x rest =>
    refine (noAcquire_cons x rest).mpr ⟨?_, fun y hy => h.resetFirst y (by simpa [hh] using hy)⟩
    cases x with
    | acquire rs => exact absurd (h.resetWaits rs rest hh).1 hs
    | _ => rfl

/-- The invariant reads these elements of the block, and of the controller its memories. -/
theorem CoreInv.congr {s t : State} (h : CoreInv s) (hspi : t.spiMode = s.spiMode) (hcs : t.csN = s.csN)
    (hrst : t.rstN = s.rstN) (hseq : t.seq = s.seq) (hf : t.fault = s.fault) (htr : t.trace = s.trace)
    (hm : MemInv t.ctrl) : CoreInv t := by
  obtain ⟨⟨h1, h2, h3, -⟩, hstatus⟩ := h
  refine ⟨⟨hspi ▸ h1, by rw [hcs, htr, h2], htr ▸ h3, hm⟩, ?_⟩
  rcases hstatus with ⟨h1, h2, h3, h4⟩ | ⟨h1, h2, h3, h4⟩
  · exact .inl ⟨hf ▸ h1, htr ▸ h2, by rw [hcs, htr, hseq, h3], by rw [hrst, hseq, h4]⟩
  · exact .inr ⟨hf ▸ h1, by rw [htr, hf, h2], hf ▸ h3, hseq ▸ h4⟩

theorem CoreInv.hostOnly {s t : State} (h : CoreInv s) (ht : HostOnly s t) : CoreInv t := by
  rw [ht]
  exact h.congr rfl rfl rfl rfl rfl rfl h.lines.mem

theorem CoreInv.framed {s t : State} (h : CoreInv s) (ht : Framed s t) : CoreInv t := by
  obtain ⟨honly, hmem⟩ := ht
  have hm := hmem h.lines.mem
  rw [honly] at hm ⊢
  exact h.congr rfl rfl rfl rfl rfl rfl hm

theorem CoreInv.complete {s : State} (h : CoreInv s) (c : BitVec 3) (r : Option (List Pixel)) :
    CoreInv (complete c r s) :=
  h.congr rfl rfl rfl rfl rfl rfl h.lines.mem

/-! ### A step of the sequencer -/

/-- Only the lines, `FAULT` and the environment may differ: what is set before an event is emitted. -/
def PinsOnly (s t : State) : Prop := t = { s with csN := t.csN, rstN := t.rstN, fault := t.fault, env := t.env }

/-- A block in which nothing has failed emits an event that may follow; a chip-select line it names has been driven. -/
theorem LinesInv.emit {s t : State} {e : Event} (h : LinesInv s) (hn : NoFail s.trace) (he : MayFollow s.trace e)
    (ht : PinsOnly s t) (hcs : t.csN = levelFrom s.csN [e]) : LinesInv (emit e t) := by
  have htr : t.trace = s.trace := by rw [ht]
  have hmem : MemInv t.ctrl := by rw [ht]; exact h.mem
  have hspi : t.spiMode = 3 := by rw [ht]; exact h.spi
  exact ⟨by simpa using hspi, by simp [levelFrom_append, htr, hcs, h.csLevel],
    by simpa [htr] using h.trace.append hn he, hmem.emit e⟩

theorem LinesInv.emitBytes {s : State} {f : List Byte} (h : LinesInv s) (hn : NoFail s.trace)
    (hf : BytesMayFollow s.trace f) (e : Env) : LinesInv (emitBytes f (s.setEnv e)) where
  spi := by simp [h.spi]
  csLevel := by simp [levelFrom_append, h.csLevel]
  trace := by simpa using h.trace.append_tx hn hf
  mem := MemInv.emitBytes (s := s.setEnv e) h.mem f

/-- The micro-operation is done and `SEQ` is what was left after it. -/
theorem coreInv_advance {t : State} {rest : List MicroOp} (h : LinesInv t) (hf : t.fault = 0) (hn : NoFail t.trace)
    (hseq : seqOk t.csN (freshBracket t.trace) rest = true) (hrst : rstAfter t.rstN rest = .high) :
    CoreInv (advance rest t) where
  lines := ⟨by simpa using h.spi, by simpa using h.csLevel, by simpa using h.trace, by simpa using h.mem⟩
  status := .inl ⟨by simpa using hf, by simpa using hn, by simpa using hseq, by simpa using hrst⟩

/-- The same, for a micro-operation that emits one event. -/
theorem coreInv_advance_emit {s t : State} {e : Event} {rest : List MicroOp} (h : LinesInv s) (hn : NoFail s.trace)
    (he : MayFollow s.trace e) (ht : PinsOnly s t) (hcs : t.csN = levelFrom s.csN [e]) (hf : t.fault = 0)
    (hfail : ∀ k, e ≠ .fail k) (hseq : seqOk t.csN (freshBracket (s.trace ++ [e])) rest = true)
    (hrst : rstAfter t.rstN rest = .high) : CoreInv (advance rest (emit e t)) := by
  have htr : t.trace = s.trace := by rw [ht]
  have hn' : NoFail (s.trace ++ [e]) := hn.append fun k hk => hfail k (List.mem_singleton.mp hk).symm
  exact coreInv_advance (h.emit hn he ht hcs) (by simpa using hf) (by simpa [htr] using hn') (by simpa [htr] using hseq)
    (by simpa using hrst)

theorem Failure.code_ne_zero (f : Failure) : f.code ≠ 0 := by cases f <;> simp [Failure.code]

theorem Failure.code_le (f : Failure) : f.code.toNat ≤ 4 := by cases f <;> simp [Failure.code]

/-- R134: the block stops with the `FAIL` that records its first failure. -/
theorem LinesInv.raise {s : State} (h : LinesInv s) (hf : s.fault = 0) (hn : NoFail s.trace) (f : Failure) :
    CoreInv (raise f s) where
  lines := by
    obtain ⟨hspi, hcs, htr, hmem⟩ := h.emit (t := s.setFault (recordFault s.fault f.code)) (e := .fail f.code) hn trivial
      rfl rfl
    exact ⟨hspi, hcs, htr, hmem⟩
  status := .inr ⟨by simpa [hf, recordFault] using f.code_ne_zero, by simp [hf, recordFault],
    by simpa [hf, recordFault] using f.code_le, by simp⟩

theorem LinesInv.failCommand {s : State} (h : LinesInv s) (hf : s.fault = 0) (hn : NoFail s.trace) (f : Failure) :
    CoreInv (failCommand f s) :=
  LinesInv.raise (s := openDownstream s) ⟨h.spi, h.csLevel, h.trace, memInv_openController _ _⟩ hf hn f

theorem CoreInv.microStep {s : State} (h : CoreInv s) : CoreInv (microStep s) := by
  cases hs : s.seq with
  | nil => rwa [microStep_idle hs]
  | cons u rest =>
    obtain ⟨hf, hn, hseq, hrst⟩ := h.healthy_of_busy (by simp [hs])
    rw [hs] at hseq hrst
    have hcs := h.lines.csLevel
    rcases microStep_cases hs with ⟨l, e, rfl, ht⟩ | ⟨l, e, rfl, ht⟩ | ⟨f, e, rfl, ht⟩ | ⟨ms, rfl, ht⟩ |
      ⟨g, e, sent, hsent, ht⟩ | ht
    · obtain ⟨hl, hrest⟩ := seqOk_driveCs hseq
      have hmay : l = (levelFrom .high s.trace).flip := hcs ▸ hl
      rw [ht]
      exact coreInv_advance_emit h.lines hn hmay rfl rfl hf (by simp) (by simpa [freshBracket_cs] using hrest) hrst
    · obtain ⟨hl, hrest⟩ := seqOk_driveRst hseq
      have hmay : levelFrom .high s.trace = .high := hcs ▸ hl
      rw [ht]
      exact coreInv_advance_emit h.lines hn hmay rfl rfl hf (by simp) (by simpa [freshBracket_rst, hl] using hrest) hrst
    · obtain ⟨hl, hframe, hrest⟩ := seqOk_txFrame hseq
      have hbytes := bytesMayFollow_take (hcs ▸ hl) hframe f.length
      rw [List.take_length] at hbytes
      rw [ht]
      exact coreInv_advance (h.lines.emitBytes hn hbytes e) (by simpa using hf) (by simpa using hn.append (noFail_tx f))
        (by simpa [freshBracket_tx _ hframe, hl] using hrest) (by simpa [rstAfter] using hrst)
    · obtain ⟨hl, hrest⟩ := seqOk_wait hseq
      have hmay : levelFrom .high s.trace = .high := hcs ▸ hl
      rw [ht]
      exact coreInv_advance_emit h.lines hn hmay rfl rfl hf (by simp) (by simpa [freshBracket_wait, hl] using hrest) hrst
    · have hbytes : BytesMayFollow s.trace sent := by
        rcases hsent with rfl | ⟨f, k, rfl, rfl⟩
        · exact fun b hb => nomatch hb
        · obtain ⟨hl, hframe, -⟩ := seqOk_txFrame hseq
          exact bytesMayFollow_take (hcs ▸ hl) hframe k
      exact ht ▸ (h.lines.emitBytes hn hbytes e).failCommand (by simpa using hf)
        (by simpa using hn.append (noFail_tx sent)) g
    · rwa [ht]

theorem CoreInv.microSteps {s : State} (h : CoreInv s) (n : Nat) : CoreInv (microSteps n s) := by
  induction n generalizing s with
  | zero => exact h
  | succ n ih => exact ih h.microStep

/-! ### A command -/

/-- Between commands both lines are inactive (R25 item 1). -/
theorem Healthy.inactive {s : State} (h : Healthy s) (hs : s.seq = []) : s.csN = .high ∧ s.rstN = .high := by
  obtain ⟨-, -, hseq, hrst⟩ := h
  rw [hs] at hseq hrst
  exact ⟨seqOk_nil hseq, hrst⟩

theorem CoreInv.setExpansion {s : State} {imm : State → State} {exp : List MicroOp} (h : CoreInv s) (hh : Healthy s)
    (hs : s.seq = []) (hc : CommandParts imm exp) : CoreInv ((imm s).setSeq exp) := by
  obtain ⟨hspi, hcs, htr, hmem⟩ := h.lines
  obtain ⟨hhigh, hrst⟩ := hh.inactive hs
  have himm : CoreInv (s.setSeq exp) :=
    ⟨⟨hspi, hcs, htr, hmem⟩, .inl ⟨hh.fault, hh.noFail, by simpa [hhigh] using hc.fits _,
      by simpa [hrst] using hc.rstInactive⟩⟩
  rcases hc.immediate with rfl | ⟨hz, rfl⟩
  · exact himm
  · exact himm.congr rfl rfl rfl rfl rfl rfl hmem

theorem CoreInv.accept {s : State} {imm : State → State} {exp : List MicroOp} (h : CoreInv s) (hs : s.seq = [])
    (hc : CommandParts imm exp) (wf : Bool) (res : Option (List Pixel)) : CoreInv (accept wf imm res exp s) := by
  rcases accept_cases wf imm res exp s with ⟨-, ha⟩ | ⟨hf, ha⟩ | ⟨hf, rfl, ha⟩ | ⟨hf, ha⟩ <;> rw [ha]
  · exact h.complete _ _
  · exact h.lines.raise hf (h.healthy hf).noFail _
  · exact (h.setExpansion (h.healthy hf) hs hc).complete _ _
  · exact h.setExpansion (h.healthy hf) hs hc

theorem CoreInv.commanded {s t : State} (h : CoreInv s) (hs : s.seq = []) (ht : Commanded s t) : CoreInv t := by
  obtain ⟨wf, imm, res, exp, hc, rfl⟩ := ht
  rw [runCommand_eq_microSteps wf imm res exp hs]
  exact (h.accept hs hc wf res).microSteps _

/-! ### Block reset -/

/-- Block reset, once its elements are set, has emitted nothing and nothing has failed (R151). -/
structure Fresh (s : State) : Prop where
  core : CoreInv s
  seq : s.seq = []
  fault : s.fault = 0
  trace : s.trace = []

theorem coreInv_start {s : State} (hspi : s.spiMode = 3) (hcs : s.csN = .high) (hrst : s.rstN = .high)
    (hseq : s.seq = []) (hf : s.fault = 0) (htr : s.trace = []) (hm : MemInv s.ctrl) : CoreInv s where
  lines := ⟨hspi, by rw [hcs, htr]; rfl, htr ▸ traceInv_nil, hm⟩
  status := .inl ⟨hf, fun k => by simp [htr], by rw [hcs, hseq, htr]; rfl, by rw [hrst, hseq]; rfl⟩

theorem fresh_resetElements (hz : U32) (s : State) : Fresh (resetElements hz s) :=
  ⟨coreInv_start rfl rfl rfl rfl rfl rfl (memInv_openController _ _), rfl, rfl, rfl⟩

theorem Resource.code_ne_zero (r : Resource) : r.code ≠ 0 := by cases r <;> decide

theorem Resource.code_le (r : Resource) : r.code.toNat ≤ 4 := by cases r <;> decide

theorem Fresh.resetFails {s : State} (h : Fresh s) (r : Resource) : CoreInv (resetFails r.code s) where
  lines := by
    have hn : NoFail s.trace := fun k => by simp [h.trace]
    obtain ⟨hspi, hcs, htr, hmem⟩ := h.core.lines.emit (t := s.setFault r.code) (e := .fail r.code) hn trivial
      rfl rfl
    exact ⟨hspi, hcs, htr, hmem⟩
  status := .inr ⟨by simpa [Machine.resetFails] using r.code_ne_zero, by simp [Machine.resetFails],
    by simpa [Machine.resetFails] using r.code_le, by simp [Machine.resetFails, h.seq]⟩

/-- The acquisitions end, well or with a failure, or the block waits in one of them. -/
theorem Fresh.acquireAll {s : State} (h : Fresh s) (hn : NoAcquire s.hostSeq) (rs : List Resource) :
    BlockInv (acquireAll rs s) := by
  have henv : ∀ e, CoreInv (s.setEnv e) := fun e => h.core.congr rfl rfl rfl rfl rfl rfl h.core.lines.mem
  rcases acquireAll_cases rs s with ⟨e, ht⟩ | ⟨e, r, -, ht⟩ | ⟨e, r, rest, -, ht⟩ <;> rw [ht]
  · refine .of_noAcquire ?_ hn
    exact h.core.congr rfl rfl rfl rfl rfl rfl h.core.lines.mem
  · refine .of_noAcquire (Fresh.resetFails ⟨henv e, h.seq, h.fault, h.trace⟩ r) ?_
    simpa [Machine.resetFails] using hn
  · refine .of_core ?_ (fun _ _ _ => ⟨h.seq, h.fault, h.trace⟩) hn
    exact h.core.congr rfl rfl rfl rfl rfl rfl h.core.lines.mem

/-! ### The step of the machine -/

theorem BlockInv.step {s t : State} (h : BlockInv s) (ht : step s = .next t) : BlockInv t := by
  cases step_kind ht with
  | sequencer hs ht =>
    subst ht
    refine .of_noAcquire h.core.microStep ?_
    rw [(microStep_forward s).host.2.1]
    exact h.noAcquire hs
  | given u hs hu hseq ht =>
    have hcore : CoreInv u := h.core.hostOnly hu
    have hseq' : u.seq = [] := by rw [hu]; exact hs
    have htail : NoAcquire t.hostSeq := by
      rw [(given_forward ht).host.2.1, hseq]
      exact h.resetFirst
    exact .of_noAcquire (ht.elim (hcore.commanded hseq') hcore.framed) htail
  | host hs ht hseq => exact .of_noAcquire (h.core.hostOnly ht) (hseq h.resetFirst)
  | reset hz rest hs hh ht =>
    subst ht
    have hrest : NoAcquire rest := fun x hx => h.resetFirst x (by simpa [hh] using hx)
    exact (fresh_resetElements hz (s.setHostSeq rest)).acquireAll hrest _
  | acquire rs rest hs hh ht =>
    subst ht
    have hrest : NoAcquire rest := fun x hx => h.resetFirst x (by simpa [hh] using hx)
    obtain ⟨hseq, hf, htr⟩ := h.resetWaits rs rest hh
    have hfresh : Fresh (s.setHostSeq rest) := ⟨h.core.hostOnly rfl, hseq, hf, htr⟩
    exact hfresh.acquireAll hrest rs

end Sys2Proof.Machine
end

section
/-! SUPPORT. The obligations about the state of the block and its step (10_state.md), each from the lemmas above. -/

namespace Sys2Proof.Machine

/-! ### The invariant -/

/-- Settles O43, by the kinds of step: the sequencer, a command or frame taken, the host alone, block reset. -/
theorem stepKeepsInvariant : Obligations.StepKeepsInvariant := by
  unfold Obligations.StepKeepsInvariant
  exact fun s t h ht => h.step ht

/-- Settles O44: before the first event nothing is left in `SEQ` and both lines are inactive. -/
theorem resetHasInvariant : Obligations.ResetHasInvariant := by
  unfold Obligations.ResetHasInvariant
  exact .of_noAcquire (coreInv_start rfl rfl rfl rfl rfl rfl memInv_reset) noAcquire_nil

/-- Settles O45: with nothing left in `SEQ` the two clauses of the invariant about it name the lines' levels. -/
theorem chipSelectInactiveBetweenCommands : Obligations.ChipSelectInactiveBetweenCommands := by
  unfold Obligations.ChipSelectInactiveBetweenCommands
  intro s h hf hs
  exact (h.core.healthy hf).inactive hs

/-! ### The step -/

/-- Settles O22: with answers `ok` no micro-operation raises a failure, so the step is `advance`. -/
theorem stepTakesHeadOfSeq : Obligations.StepTakesHeadOfSeq := by
  unfold Obligations.StepTakesHeadOfSeq
  intro u rest s hs henv
  obtain ⟨t, hp, hf, hc⟩ := perform_allOk u henv
  exact ⟨_, step_done hs hp, by simp, by simp [hf], by rw [advance_completions, hc]⟩

/-- Settles O25: the sequencer only goes forward, and the port is not ready (R19, R63). -/
theorem busyBlockAcceptsNothing : Obligations.BusyBlockAcceptsNothing := by
  unfold Obligations.BusyBlockAcceptsNothing
  intro s hs
  refine ⟨?_, fun i hi => by rw [exec_command hi, runCommand_notReady hs]⟩
  obtain ⟨u, rest, hs⟩ := List.exists_cons_of_ne_nil hs
  obtain ⟨hinbox, hhost, -, -⟩ := (microStep_forward s).host
  exact ⟨_, step_microStep hs, hinbox, hhost⟩

/-- Settles O26, by induction on what is left in `SEQ`, which no micro-operation reads. -/
theorem bigStepEqualsMicroSteps : Obligations.BigStepEqualsMicroSteps := by
  unfold Obligations.BigStepEqualsMicroSteps
  refine ⟨fun s => microSteps_eq_performAll rfl, fun i s hi hs => ?_⟩
  rw [exec_command hi, accepted_command hi, runCommand_eq_microSteps _ _ _ _ hs]

/-- Settles O21. -/
theorem stepRunsDecodedInstruction : Obligations.StepRunsDecodedInstruction := by
  unfold Obligations.StepRunsDecodedInstruction
  intro p rest i s hs hh hi hd
  rw [step_packet hs hh hi]
  unfold runPacket
  rw [hd]
  rfl

/-- Settles O23. -/
theorem idleBlockStays : Obligations.IdleBlockStays := by
  unfold Obligations.IdleBlockStays
  exact fun s hs hh hi => step_idle hs hh hi

/-! ### The micro-operations -/

/-- Settles O27, one rule of `drive_cs` for each answer. -/
theorem driveCsDrivesLine : Obligations.DriveCsDrivesLine := by
  unfold Obligations.DriveCsDrivesLine
  intro l rest s hs
  refine ⟨fun h => ⟨_, step_done hs (perform_driveCs_ok l h), ?_⟩,
    fun h => ⟨_, step_failed hs (perform_driveCs_fail l h), ?_⟩⟩
  · simp [SpeedSame, HostSame]
  · simp +contextual [SpeedSame, HostSame, Failure.code, recordFault]

/-- Settles O28, one rule of `drive_rst` for each answer. -/
theorem driveRstDrivesLine : Obligations.DriveRstDrivesLine := by
  unfold Obligations.DriveRstDrivesLine
  intro l rest s hs
  refine ⟨fun h => ⟨_, step_done hs (perform_driveRst_ok l h), ?_⟩,
    fun h => ⟨_, step_failed hs (perform_driveRst_fail l h), ?_⟩⟩
  · simp [SpeedSame, HostSame]
  · simp +contextual [SpeedSame, HostSame, Failure.code, recordFault]

/-- Settles O29, one rule of `tx_frame` for each answer. -/
theorem txFrameSendsBytes : Obligations.TxFrameSendsBytes := by
  unfold Obligations.TxFrameSendsBytes
  intro f rest s hs
  refine ⟨fun h => ⟨_, step_done hs (perform_txFrame_ok f h), ?_⟩,
    fun h => ⟨_, step_failed hs (perform_txFrame_openFail f h), ?_⟩,
    fun k _ h => ⟨_, step_failed hs (perform_txFrame_xferFail f h), ?_⟩⟩
  · simp [SpeedSame, HostSame]
  · simp +contextual [SpeedSame, HostSame, Failure.code, recordFault]
  · simp +contextual [SpeedSame, HostSame, Failure.code, recordFault]

/-- Settles O30. -/
theorem waitLeavesItsEvent : Obligations.WaitLeavesItsEvent := by
  unfold Obligations.WaitLeavesItsEvent
  intro ms rest s hs
  refine ⟨_, step_done hs (perform_wait ms s), ?_⟩
  simp [SpeedSame, HostSame]
  rfl

/-! ### What stays -/

/-- Settles O39: a command goes through acceptance and the sequencer, a frame reaches the controller only. -/
theorem instructionsKeepWhatIsNotTheirs : Obligations.InstructionsKeepWhatIsNotTheirs := by
  unfold Obligations.InstructionsKeepWhatIsNotTheirs
  intro i s t h
  obtain ⟨-, hactive, hspi, hhost⟩ := given_forward (exec_kind h)
  refine ⟨hactive, hspi, hhost, ?_⟩
  cases hi : i.isCommand with
  | true =>
    rw [exec_command hi] at h
    cases h
    refine ⟨fun hset => ?_, fun hrstp => ?_, fun hno => nomatch hno⟩
    · have himm : immediateOf i = id := (immediateOf_cases i).resolve_right fun ⟨hz, heq, _⟩ => hset hz heq
      rw [himm, runCommand_speedHz]
    · exact runCommand_rstN (commandParts_of i) (expansionOf_noRst hrstp) _ _ s
  | false =>
    rw [exec_frame hi] at h
    cases h
    obtain ⟨-, hrst, ⟨hspeed, -⟩, -⟩ := (frameEffect_only i s).blockSame
    exact ⟨fun _ => hspeed, fun _ => hrst, fun _ => (frameEffect_only i s).blockSame⟩

/-- Settles O41, by the kinds of step. -/
theorem traceOnlyGrows : Obligations.TraceOnlyGrows := by
  unfold Obligations.TraceOnlyGrows
  exact fun s t h hr => (step_keepsSession h hr).1

/-- Settles O42, by the kinds of step. -/
theorem speedActiveOnlyByBlockReset : Obligations.SpeedActiveOnlyByBlockReset := by
  unfold Obligations.SpeedActiveOnlyByBlockReset
  exact fun s t h hr => (step_keepsSession h hr).2

/-- Settles O1. -/
theorem resetHoldsBlockValues : Obligations.ResetHoldsBlockValues := by
  unfold Obligations.ResetHoldsBlockValues
  exact ⟨rfl, rfl, rfl, rfl, rfl, rfl, rfl, rfl⟩

end Sys2Proof.Machine
end

section
/-! SUPPORT. What a complete frame leaves in the controller's memories (20_memory.md R34 to R36), and a command of two
frames in normal operation. -/

namespace Sys2Proof.Machine

/-! ### What stays of a memory -/

theorem sameOutside_write (m : Memory) (a : Nat) (v : BitVec 16) : SameOutside [a] m (Memory.write m a v) :=
  fun _ hb => Memory.read_write_other m v (List.ne_of_not_mem_cons hb)

theorem sameOutside_writeAll_zip (m : Memory) (targets : List Nat) (vs : List (BitVec 16)) :
    SameOutside targets m (Memory.writeAll m (targets.zip vs)) := by
  intro b hb
  refine Memory.read_writeAll_other m _ fun hmem => hb ?_
  obtain ⟨e, he, rfl⟩ := List.mem_map.mp hmem
  exact (List.of_mem_zip he).1

/-! ### A frame from outside -/

theorem indexFrame_isCommand (a : U16) : (indexFrame a).isCommand = false := by
  unfold indexFrame
  split <;> rfl

theorem dataFrame_isCommand {payload : List Byte} {i : Instr} (h : dataFrame payload = .ok i) :
    i.isCommand = false := by
  unfold dataFrame at h
  split at h <;> cases h <;> rfl

theorem decodeFrame_isCommand {bytes : List Byte} {i : Instr} (h : decodeFrame bytes = .ok i) :
    i.isCommand = false := by
  unfold decodeFrame at h
  split at h
  · cases h
  · split at h
    · split at h
      · cases h
        exact indexFrame_isCommand _
      · cases h
    · split at h
      · exact dataFrame_isCommand h
      · cases h

/-- A frame presented on the bus does what it does when the block sends it. -/
theorem runPacket_frame (bytes : List Byte) (s : State) :
    runPacket (.frame bytes) s = .next (receiveFrame bytes s) := by
  have hd : decode (.frame bytes) = decodeFrame bytes := rfl
  unfold runPacket
  cases h : decodeFrame bytes with
  | ok i =>
    rw [hd, h, receiveFrame_ok h]
    exact exec_frame (decodeFrame_isCommand h) s
  | error e => rw [hd, h, receiveFrame_error h]

theorem runPacket_indexFrame (h l : Byte) (s : State) :
    runPacket (.frame [0x70, h, l]) s = .next (selectIndex (joinBytes h l) s) := by
  rw [runPacket_frame, ← receiveFrame_index]
  simp [indexFrameBytes]

theorem runPacket_dataFrame (h l : Byte) (s : State) :
    runPacket (.frame [0x72, h, l]) s = .next (receiveData (joinBytes h l) s) := by
  rw [runPacket_frame, ← receiveFrame_data]
  simp [dataFrameBytes]

/-- A register write (R35): the cells of the controller after it. -/
theorem receiveData_register_cells (v : U16) {s : State} (h : s.ctrl.sel ≠ 0x0022) :
    Memory.read (receiveData v s).ctrl.regs s.ctrl.sel.toNat = v ∧
      SameOutside [s.ctrl.sel.toNat] s.ctrl.regs (receiveData v s).ctrl.regs ∧
      (receiveData v s).ctrl.gram = s.ctrl.gram ∧ (receiveData v s).ctrl.sel = s.ctrl.sel := by
  rw [receiveData_register v h]
  exact ⟨Memory.read_write_same _ _ _, sameOutside_write _ _ _, rfl, rfl⟩

/-! ### A command of two frames -/

/-- In normal operation a command of two frames sends both brackets and completes with code 0. -/
theorem runCommand_twoBrackets (f g : List Byte) {s : State} (h : NormalOperation s) :
    ∃ t u, Bracketed f (s.setSeq (bracket f ++ bracket g)) t ∧ Bracketed g t u ∧
      runCommand true id none (bracket f ++ bracket g) s = complete codeNone none (u.setSeq []) := by
  obtain ⟨hf, hs, henv⟩ := h
  obtain ⟨t, ht, hft⟩ := performAll_bracket f (bracket g) (s := s.setSeq (bracket f ++ bracket g)) henv
  obtain ⟨u, hu, hgu⟩ := performAll_bracket g [] ht.env
  have hg : bracket g ≠ [] := List.cons_ne_nil _ _
  rw [if_neg hg] at hft
  rw [List.append_nil, if_pos rfl] at hgu
  refine ⟨t, u, ht, hu, ?_⟩
  calc runCommand true id none (bracket f ++ bracket g) s
      = performAll (bracket f ++ bracket g) (s.setSeq (bracket f ++ bracket g)) := runCommand_accepts hs hf
    _ = performAll (bracket g) t := hft
    _ = complete codeNone none (u.setSeq []) := hgu

theorem Bracketed.index_sel {a : U16} {s t : State} (h : Bracketed (indexFrameBytes a) s t) : t.ctrl.sel = a := by
  obtain ⟨u, -, -, hctrl, -⟩ := h.seen
  rw [hctrl, receiveFrame_index, selectIndex_ctrl]

/-- A bracket with a data frame writes the selected register (R35). -/
theorem Bracketed.data_read {v : U16} {s t : State} (h : Bracketed (dataFrameBytes v) s t)
    (hs : s.ctrl.sel ≠ 0x0022) : Memory.read t.ctrl.regs s.ctrl.sel.toNat = v := by
  obtain ⟨u, hu, -, hctrl, -⟩ := h.seen
  have hsel : u.ctrl.sel = s.ctrl.sel := by rw [hu]
  rw [hctrl, receiveFrame_data, ← hsel]
  exact (receiveData_register_cells v (hsel ▸ hs)).1

end Sys2Proof.Machine
end

section
/-! SUPPORT. The obligations about the controller's registers and GRAM (20_memory.md), each from the lemmas above. -/

namespace Sys2Proof.Machine

/-- Settles O10: each of the three is `selectIndex`. -/
theorem indexFrameSelectsRegister : Obligations.IndexFrameSelectsRegister := by
  unfold Obligations.IndexFrameSelectsRegister
  refine ⟨fun h l s => ?_, fun a s => ?_, fun s => ?_⟩
  · exact ⟨_, runPacket_indexFrame h l s, by rw [selectIndex_ctrl]; rfl, (selectIndex_only _ s).blockSame⟩
  · refine ⟨selectIndex a s, rfl, ?_, (selectIndex_only a s).blockSame, ?_⟩
    · rw [selectIndex_ctrl]
    · simp +contextual [selectIndex_ctrl]
  · refine ⟨selectIndex 0x0022 s, rfl, ?_, (selectIndex_only 0x0022 s).blockSame, ?_⟩
    · rw [selectIndex_ctrl]
    · simp [selectIndex_ctrl]

/-- Settles O11: a data frame is `receiveData`, alone or after the index frame of `WRREG`. -/
theorem dataFrameWritesSelectedRegister : Obligations.DataFrameWritesSelectedRegister := by
  unfold Obligations.DataFrameWritesSelectedRegister
  refine ⟨fun h l s hsel => ?_, fun v s hsel => ?_, fun addr value s hn haddr => ?_⟩
  · exact ⟨_, runPacket_dataFrame h l s, (receiveData_register_cells _ hsel).1⟩
  · obtain ⟨hread, hregs, hgram, hsel'⟩ := receiveData_register_cells v hsel
    exact ⟨receiveData v s, rfl, hread, hregs, hgram, hsel', (receiveData_only v s).blockSame⟩
  · obtain ⟨t, u, ht, hu, hrun⟩ := runCommand_twoBrackets (indexFrameBytes addr) (dataFrameBytes value) hn
    have hsel : t.ctrl.sel = addr := ht.index_sel
    exact ⟨_, congrArg Host.Outcome.next hrun, hsel ▸ hu.data_read (hsel ▸ haddr)⟩

/-- Settles O12: the pixel is one write to GRAM. -/
theorem dataFrameWritesOnePixel : Obligations.DataFrameWritesOnePixel := by
  unfold Obligations.DataFrameWritesOnePixel
  intro v s hsel
  refine ⟨receiveData v s, rfl, ?_⟩
  have hblock := (receiveData_only v s).blockSame
  rw [receiveData_pixel v hsel]
  exact ⟨Memory.read_write_same _ _ _, sameOutside_write _ _ _, rfl, rfl, hblock⟩

/-- Settles O13: with GRAM selected by the induction on the pixels in `writePixels_ctrl`; one pixel with another index
selected is a register write. -/
theorem streamFrameWritesPixels : Obligations.StreamFrameWritesPixels := by
  unfold Obligations.StreamFrameWritesPixels
  intro ps s
  refine ⟨receiveStream ps s, rfl, (receiveStream_only ps s).blockSame, fun hsel hne => ?_, fun v hsel hps => ?_⟩
  · obtain ⟨hgram, hregs, hsel'⟩ := writePixels_ctrl ps s
    rw [receiveStream_gram hsel hne]
    exact ⟨hgram, hgram ▸ sameOutside_writeAll_zip _ _ _, hregs, hsel'.trans hsel⟩
  · subst hps
    exact receiveData_register_cells v hsel

end Sys2Proof.Machine
end

section
/-! SUPPORT. What a command word and its payload decode to (30_encoding.md R55 to R59): the fields and the bytes of the
word, the bytes of a payload, and what the opcode map answers; then the frames, and the decoder and the encoder as
inverses. -/

namespace Sys2Proof

/-! ### Bit fields put together -/

theorem toNat_append_add {m n : Nat} (x : BitVec m) (y : BitVec n) :
    (x ++ y).toNat = x.toNat * 2 ^ n + y.toNat := by
  rw [BitVec.toNat_append, ← Nat.shiftLeft_add_eq_or_of_lt y.isLt, Nat.shiftLeft_eq]

/-- The operand of `SETSPD` (R57) has its two fields as its halves. -/
theorem append_eq_iff_halves (hz : U32) (a b : U16) :
    (a ++ b : BitVec (16 + 16)) = hz ↔ a = hz.extractLsb' 16 16 ∧ b = hz.extractLsb' 0 16 := by
  constructor
  · rintro rfl
    exact ⟨BitVec.extractLsb'_append_eq_left.symm, BitVec.extractLsb'_append_eq_right.symm⟩
  · rintro ⟨rfl, rfl⟩
    exact BitVec.extractLsb'_append_extractLsb'

/-! ### The fields of a command word (R55) -/

@[simp] theorem wordOp_commandWord (op : Byte) (a b : U16) : wordOp (commandWord op a b) = op := by
  calc wordOp (commandWord op a b) = (op ++ a).extractLsb' 16 8 := BitVec.extractLsb'_append_eq_of_le (by decide)
    _ = op := BitVec.extractLsb'_append_eq_left

@[simp] theorem wordA_commandWord (op : Byte) (a b : U16) : wordA (commandWord op a b) = a := by
  calc wordA (commandWord op a b) = (op ++ a).extractLsb' 0 16 := BitVec.extractLsb'_append_eq_of_le (by decide)
    _ = a := BitVec.extractLsb'_append_eq_right

@[simp] theorem wordB_commandWord (op : Byte) (a b : U16) : wordB (commandWord op a b) = b :=
  BitVec.extractLsb'_append_eq_right

theorem commandWord_fields (w : BitVec 40) : commandWord (wordOp w) (wordA w) (wordB w) = w := by
  have hop : wordOp w ++ wordA w = w.extractLsb' 16 24 := BitVec.extractLsb'_append_extractLsb'_eq_extractLsb' rfl
  unfold commandWord
  rw [hop]
  exact BitVec.extractLsb'_append_extractLsb'

/-- `hz`, bits [31:0] (R57). -/
theorem wordA_append_wordB (w : BitVec 40) : (wordA w ++ wordB w : BitVec (16 + 16)) = w.extractLsb' 0 32 :=
  BitVec.extractLsb'_append_extractLsb'_eq_extractLsb' rfl

theorem eq_commandWord_iff (w : BitVec 40) (op : Byte) (a b : U16) :
    w = commandWord op a b ↔ wordOp w = op ∧ wordA w = a ∧ wordB w = b := by
  constructor
  · rintro rfl
    simp
  · rintro ⟨rfl, rfl, rfl⟩
    exact (commandWord_fields w).symm

/-- A mask of whole fields is a condition on each field. -/
theorem and_commandWord_eq_iff (w : BitVec 40) (m op : Byte) (ma a mb b : U16) :
    w &&& commandWord m ma mb = commandWord op a b ↔
      wordOp w &&& m = op ∧ wordA w &&& ma = a ∧ wordB w &&& mb = b := by
  have hand : w &&& commandWord m ma mb = commandWord (wordOp w &&& m) (wordA w &&& ma) (wordB w &&& mb) := by
    conv_lhs => rw [← commandWord_fields w]
    exact BitVec.and_append.trans (congrArg (· ++ _) BitVec.and_append)
  rw [hand, eq_commandWord_iff]
  simp

/-- The mask of a row with operands in both fields (R56). -/
theorem and_opMask_iff (w : BitVec 40) (op : Byte) : w &&& 0xFF00000000 = commandWord op 0 0 ↔ wordOp w = op := by
  have hall : wordOp w &&& 0xFF = wordOp w := BitVec.and_allOnes
  have hmask : (0xFF00000000 : BitVec 40) = commandWord 0xFF 0 0 := rfl
  rw [hmask, and_commandWord_eq_iff, hall]
  simp

/-- The mask of a row whose field `b` must be 0 (R56). -/
theorem and_opBMask_iff (w : BitVec 40) (op : Byte) :
    w &&& 0xFF0000FFFF = commandWord op 0 0 ↔ wordOp w = op ∧ wordB w = 0 := by
  have hall : wordOp w &&& 0xFF = wordOp w := BitVec.and_allOnes
  have hallB : wordB w &&& 0xFFFF = wordB w := BitVec.and_allOnes
  have hmask : (0xFF0000FFFF : BitVec 40) = commandWord 0xFF 0 0xFFFF := rfl
  rw [hmask, and_commandWord_eq_iff, hall, hallB]
  simp

/-- The mask of a row both of whose fields must be 0 (R56). -/
theorem and_fullMask_iff (w : BitVec 40) (op : Byte) :
    w &&& 0xFFFFFFFFFF = commandWord op 0 0 ↔ wordOp w = op ∧ wordA w = 0 ∧ wordB w = 0 := by
  have hall : w &&& 0xFFFFFFFFFF = w := BitVec.and_allOnes
  rw [hall, eq_commandWord_iff]

/-! ### The bytes of a command word (log entry 2) -/

theorem wordBytes_join (b4 b3 b2 b1 b0 : Byte) :
    wordBytes (b4 ++ b3 ++ b2 ++ b1 ++ b0 : BitVec (8 + 8 + 8 + 8 + 8)) = [b4, b3, b2, b1, b0] := by
  simp only [wordBytes, List.cons.injEq, and_true, BitVec.toNat_eq, toNat_append_add, BitVec.extractLsb'_toNat,
    Nat.shiftRight_eq_div_pow]
  omega

theorem decode_wordBytes (w : BitVec 40) (payload : List Byte) :
    decode (.command (wordBytes w ++ payload)) = decodeWord w payload := by
  refine congrArg (decodeWord · payload) (BitVec.eq_of_toNat_eq ?_)
  simp only [toNat_append_add, BitVec.extractLsb'_toNat, Nat.shiftRight_eq_div_pow]
  omega

/-- A command that decodes has the five bytes of a word. -/
theorem decodeCommand_ok {bytes : List Byte} {i : Instr} (h : decodeCommand bytes = .ok i) :
    ∃ w payload, bytes = wordBytes w ++ payload ∧ decodeWord w payload = .ok i := by
  unfold decodeCommand at h
  split at h
  · exact ⟨_, _, by rw [wordBytes_join]; rfl, h⟩
  · cases h

/-! ### Payloads (R58, R59 (c)) -/

@[simp] theorem bytesRgb_rgbBytes (ps : List Rgb) : bytesRgb (rgbBytes ps) = some ps := by
  induction ps with
  | nil => rfl
  | cons p ps ih =>
    have hp : (p.extractLsb' 16 8 ++ p.extractLsb' 8 8 ++ p.extractLsb' 0 8 : BitVec (8 + 8 + 8)) = p := by
      apply BitVec.eq_of_toNat_eq
      simp only [toNat_append_add, BitVec.extractLsb'_toNat, Nat.shiftRight_eq_div_pow]
      omega
    rw [rgbBytes, bytesRgb, ih, hp]
    rfl

/-- Bytes that are RGB888 pixels are the bytes of those pixels. -/
theorem bytesRgb_some {l : List Byte} {ps : List Rgb} (h : bytesRgb l = some ps) : l = rgbBytes ps := by
  induction l using bytesRgb.induct generalizing ps with
  | case1 => cases h; rfl
  | case2 => cases h
  | case3 => cases h
  | case4 r g b rest ih =>
    obtain ⟨qs, hqs, rfl⟩ := Option.map_eq_some_iff.mp h
    rw [ih hqs]
    simp only [rgbBytes, List.cons.injEq, and_true, BitVec.toNat_eq, toNat_append_add, BitVec.extractLsb'_toNat,
      Nat.shiftRight_eq_div_pow]
    omega

/-- A whole number of 16-bit elements. -/
theorem exists_pixelBytes_iff (l : List Byte) (n : Nat) :
    (∃ ps, l = pixelBytes ps ∧ ps.length = n) ↔ l.length = 2 * n := by
  constructor
  · rintro ⟨ps, rfl, rfl⟩
    exact pixelBytes_length ps
  · intro h
    induction n generalizing l with
    | zero => exact ⟨[], List.length_eq_zero_iff.mp h, rfl⟩
    | succ n ih =>
      match l, h with
      | a :: b :: r, h =>
        obtain ⟨ps, rfl, rfl⟩ := ih r (by simp at h; omega)
        exact ⟨joinBytes a b :: ps, by simp [pixelBytes], rfl⟩

/-- A whole number of 24-bit elements. -/
theorem exists_rgbBytes_iff (l : List Byte) (n : Nat) :
    (∃ ps, l = rgbBytes ps ∧ ps.length = n) ↔ l.length = 3 * n := by
  constructor
  · rintro ⟨ps, rfl, rfl⟩
    exact rgbBytes_length ps
  · intro h
    induction n generalizing l with
    | zero => exact ⟨[], List.length_eq_zero_iff.mp h, rfl⟩
    | succ n ih =>
      match l, h with
      | r :: g :: b :: rest, h =>
        obtain ⟨ps, rfl, rfl⟩ := ih rest (by simp at h; omega)
        refine ⟨(r ++ g ++ b : BitVec (8 + 8 + 8)) :: ps, bytesRgb_some ?_, rfl⟩
        simp [bytesRgb]

/-! ### Well-formed instructions -/

@[simp] theorem Instr.wf_strm (w h : U16) (buf : List Pixel) :
    (Instr.strm w h buf).wf = true ↔ buf.length = w.toNat * h.toNat := by
  simp [Instr.wf, Instr.payloadOk, Instr.canonical]

@[simp] theorem Instr.wf_pack (w h : U16) (inbuf : List Rgb) :
    (Instr.pack w h inbuf).wf = true ↔ inbuf.length = w.toNat * h.toNat := by
  simp [Instr.wf, Instr.payloadOk, Instr.canonical]

@[simp] theorem Instr.wf_idxframe (a : U16) : (Instr.idxframe a).wf = true ↔ a ≠ Config.gramReg := by
  simp [Instr.wf, Instr.payloadOk, Instr.canonical]

@[simp] theorem Instr.wf_pixframe (ps : List Pixel) : (Instr.pixframe ps).wf = true ↔ ps.length ≠ 1 := by
  simp [Instr.wf, Instr.payloadOk, Instr.canonical]

/-! ### What the opcode map answers -/

theorem noPayload_ok {payload : List Byte} {i j : Instr} : noPayload payload i = .ok j ↔ payload = [] ∧ i = j := by
  unfold noPayload
  split <;> simp_all

theorem zeroField_ok {field : U16} {r : Except DecodeError Instr} {j : Instr} :
    zeroField field r = .ok j ↔ field = 0 ∧ r = .ok j := by
  unfold zeroField
  split <;> simp_all

theorem strmPayload_ok {w h : U16} {payload : List Byte} {j : Instr} : strmPayload w h payload = .ok j ↔
    ∃ buf, payload = pixelBytes buf ∧ buf.length = w.toNat * h.toNat ∧ .strm w h buf = j := by
  constructor
  · intro hj
    unfold strmPayload at hj
    split at hj
    · next buf hbuf =>
      split_ifs at hj with hn
      cases hj
      exact ⟨buf, bytesPixels_some hbuf, hn, rfl⟩
    · cases hj
  · rintro ⟨buf, rfl, hn, rfl⟩
    simp [strmPayload, hn]

theorem packPayload_ok {w h : U16} {payload : List Byte} {j : Instr} : packPayload w h payload = .ok j ↔
    ∃ buf, payload = rgbBytes buf ∧ buf.length = w.toNat * h.toNat ∧ .pack w h buf = j := by
  constructor
  · intro hj
    unfold packPayload at hj
    split at hj
    · next buf hbuf =>
      split_ifs at hj with hn
      cases hj
      exact ⟨buf, bytesRgb_some hbuf, hn, rfl⟩
    · cases hj
  · rintro ⟨buf, rfl, hn, rfl⟩
    simp [packPayload, hn]

/-- The word of a command, by the encoder's table (R56); a frame has none. -/
def wordOf : Instr → BitVec 40
  | .wridx addr => commandWord 0x01 addr 0
  | .wrdat value => commandWord 0x02 value 0
  | .wrreg addr value => commandWord 0x03 addr value
  | .strm w h _ => commandWord 0x04 w h
  | .rstp => commandWord 0x05 0 0
  | .pack w h _ => commandWord 0x06 w h
  | .setspd hz => commandWord 0x07 (hz.extractLsb' 16 16) (hz.extractLsb' 0 16)
  | .idxframe _ | .datframe _ | .gramsel | .pixframe _ => 0

/-- The bytes after the word (R58). -/
def payloadOf : Instr → List Byte
  | .strm _ _ buf => pixelBytes buf
  | .pack _ _ inbuf => rgbBytes inbuf
  | .wridx _ | .wrdat _ | .wrreg _ _ | .rstp | .setspd _ => []
  | .idxframe _ | .datframe _ | .gramsel | .pixframe _ => []

theorem encode_command {i : Instr} (h : i.isCommand = true) :
    encode i = .command (wordBytes (wordOf i) ++ payloadOf i) := by
  cases i with
  | idxframe _ | datframe _ | gramsel | pixframe _ => nomatch h
  | _ => rfl

/-- The opcode map answers a command just for the word and the payload of that command, well formed. -/
theorem decodeWord_ok {w : BitVec 40} {payload : List Byte} {i : Instr} : decodeWord w payload = .ok i ↔
    i.isCommand = true ∧ i.wf = true ∧ w = wordOf i ∧ payload = payloadOf i := by
  constructor
  · intro h
    have hw {op : Byte} {a b : U16} (hop : wordOp w = op) (ha : wordA w = a) (hb : wordB w = b) :
        w = commandWord op a b := (eq_commandWord_iff w op a b).mpr ⟨hop, ha, hb⟩
    unfold decodeWord at h
    dsimp only at h
    split_ifs at h with h1 h2 h3 h4 h5 h6 h7
    · simp only [zeroField_ok, noPayload_ok] at h
      obtain ⟨hb, rfl, rfl⟩ := h
      exact ⟨rfl, rfl, hw h1 rfl hb, rfl⟩
    · simp only [zeroField_ok, noPayload_ok] at h
      obtain ⟨hb, rfl, rfl⟩ := h
      exact ⟨rfl, rfl, hw h2 rfl hb, rfl⟩
    · obtain ⟨rfl, rfl⟩ := noPayload_ok.mp h
      exact ⟨rfl, rfl, hw h3 rfl rfl, rfl⟩
    · obtain ⟨buf, rfl, hn, rfl⟩ := strmPayload_ok.mp h
      exact ⟨rfl, (Instr.wf_strm _ _ _).mpr hn, hw h4 rfl rfl, rfl⟩
    · simp only [zeroField_ok, noPayload_ok] at h
      obtain ⟨ha, hb, rfl, rfl⟩ := h
      exact ⟨rfl, rfl, hw h5 ha hb, rfl⟩
    · obtain ⟨buf, rfl, hn, rfl⟩ := packPayload_ok.mp h
      exact ⟨rfl, (Instr.wf_pack _ _ _).mpr hn, hw h6 rfl rfl, rfl⟩
    · obtain ⟨rfl, rfl⟩ := noPayload_ok.mp h
      obtain ⟨ha, hb⟩ := (append_eq_iff_halves _ _ _).mp rfl
      exact ⟨rfl, rfl, hw h7 ha hb, rfl⟩
  · rintro ⟨hi, hwf, rfl, rfl⟩
    cases i with
    | idxframe _ | datframe _ | gramsel | pixframe _ => nomatch hi
    | wridx _ | wrdat _ | wrreg _ _ | rstp => simp [decodeWord, wordOf, payloadOf, zeroField, noPayload]
    | strm _ _ _ | pack _ _ _ =>
      simpa [decodeWord, wordOf, payloadOf, strmPayload, packPayload] using hwf
    | setspd hz => simp [decodeWord, wordOf, payloadOf, noPayload, append_eq_iff_halves]

/-- What R59 asks for an opcode: its zero fields and the length of its payload. -/
theorem exists_decodeWord_iff (w : BitVec 40) (payload : List Byte) : (∃ i, decodeWord w payload = .ok i) ↔
    (1 ≤ (wordOp w).toNat ∧ (wordOp w).toNat ≤ 7) ∧
      ((wordOp w = 1 ∨ wordOp w = 2 ∨ wordOp w = 5) → wordB w = 0) ∧ (wordOp w = 5 → wordA w = 0) ∧
      (wordOp w = 4 → payload.length = 2 * ((wordA w).toNat * (wordB w).toNat)) ∧
      (wordOp w = 6 → payload.length = 3 * ((wordA w).toNat * (wordB w).toNat)) ∧
      (wordOp w ≠ 4 → wordOp w ≠ 6 → payload = []) := by
  unfold decodeWord
  dsimp only
  split_ifs with h1 h2 h3 h4 h5 h6 h7
  · simp [h1, zeroField_ok, noPayload_ok]
  · simp [h2, zeroField_ok, noPayload_ok]
  · simp [h3, noPayload_ok]
  · simp [h4, strmPayload_ok, exists_pixelBytes_iff]
  · simpa [h5, zeroField_ok, noPayload_ok] using and_left_comm
  · simp [h6, packPayload_ok, exists_rgbBytes_iff]
  · simp [h7, noPayload_ok]
  · have hop : ¬(1 ≤ (wordOp w).toNat ∧ (wordOp w).toNat ≤ 7) := by
      rintro ⟨hlo, hhi⟩
      interval_cases hn : (wordOp w).toNat <;> simp_all [BitVec.toNat_eq]
    simp [hop]

/-! ### Frames (R51, R53, R54) -/

theorem encode_indexFrame (a : U16) : encode (indexFrame a) = .frame (indexFrameBytes a) := by
  unfold indexFrame
  split
  · next h => rw [h]; rfl
  · rfl

theorem indexFrame_wf (a : U16) : (indexFrame a).wf = true := by
  unfold indexFrame
  split
  · rfl
  · next h => exact (Instr.wf_idxframe a).mpr h

/-- What the bytes after the start byte 0x72 decode to has those bytes. -/
theorem dataFrame_ok {payload : List Byte} {i : Instr} (h : dataFrame payload = .ok i) :
    encode i = .frame (Config.startData :: payload) ∧ i.wf = true := by
  unfold dataFrame at h
  split at h
  · next v hv =>
    cases h
    exact ⟨by rw [bytesPixels_some hv]; rfl, rfl⟩
  · next ps hone hps =>
    cases h
    refine ⟨by rw [bytesPixels_some hps]; rfl, ?_⟩
    have hlen : ps.length ≠ 1 := fun hl => by
      obtain ⟨v, rfl⟩ := List.length_eq_one_iff.mp hl
      exact hone v rfl
    exact (Instr.wf_pixframe ps).mpr hlen
  · cases h

theorem decodeFrame_ok {bytes : List Byte} {i : Instr} (h : decodeFrame bytes = .ok i) :
    encode i = .frame bytes ∧ i.wf = true := by
  unfold decodeFrame at h
  split at h
  · cases h
  · next start payload =>
    split at h
    · next hs =>
      subst hs
      split at h
      · next hi lo =>
        cases h
        exact ⟨by simp [encode_indexFrame, indexFrameBytes], indexFrame_wf _⟩
      · cases h
    · split at h
      · next hs => exact hs ▸ dataFrame_ok h
      · cases h

/-! ### The round trips -/

theorem decode_encode {i : Instr} (h : i.wf = true) : decode (encode i) = .ok i := by
  have hcommand (hi : i.isCommand = true) : decode (encode i) = .ok i := by
    rw [encode_command hi, decode_wordBytes]
    exact decodeWord_ok.mpr ⟨hi, h, rfl, rfl⟩
  cases i with
  | idxframe a =>
    exact (decodeFrame_index a).trans (congrArg _ (if_neg ((Instr.wf_idxframe a).mp h)))
  | datframe v => exact decodeFrame_data v
  | gramsel => exact decodeFrame_index Config.gramReg
  | pixframe ps => exact decodeFrame_stream ((Instr.wf_pixframe ps).mp h)
  | _ => exact hcommand rfl

theorem encode_decode {p : Packet} {i : Instr} (h : decode p = .ok i) : encode i = p ∧ i.wf = true := by
  cases p with
  | command bytes =>
    obtain ⟨w, payload, rfl, hw⟩ := decodeCommand_ok h
    obtain ⟨hi, hwf, rfl, rfl⟩ := decodeWord_ok.mp hw
    exact ⟨encode_command hi, hwf⟩
  | frame bytes => exact decodeFrame_ok h

end Sys2Proof
end

section
/-! SUPPORT. The obligations about the encoding (30_encoding.md), each from the lemmas above. -/

namespace Sys2Proof.Machine

/-- Settles O17: for a command by the opcode map's answer to its word and payload, for a frame by its start byte. -/
theorem decodeOfEncodeIsInstruction : Obligations.DecodeOfEncodeIsInstruction := by
  unfold Obligations.DecodeOfEncodeIsInstruction
  exact fun _ h => decode_encode h

/-- Settles O15: the word's three fields and the payload decide. -/
theorem wellFormedCommandsDecode : Obligations.WellFormedCommandsDecode := by
  unfold Obligations.WellFormedCommandsDecode
  intro w payload
  rw [decode_wordBytes]
  exact exists_decodeWord_iff w payload

/-- Settles O16: each mask is a condition on the fields of the word, and `decodeWord_ok` says what a row asks of
them. -/
theorem opcodeMapByMatchAndMask : Obligations.OpcodeMapByMatchAndMask := by
  unfold Obligations.OpcodeMapByMatchAndMask
  intro w payload addr value width height hz buf inbuf
  have m1 : w &&& 0xFF0000FFFF = 0x0100000000 ↔ wordOp w = 1 ∧ wordB w = 0 := and_opBMask_iff w 1
  have m2 : w &&& 0xFF0000FFFF = 0x0200000000 ↔ wordOp w = 2 ∧ wordB w = 0 := and_opBMask_iff w 2
  have m3 : w &&& 0xFF00000000 = 0x0300000000 ↔ wordOp w = 3 := and_opMask_iff w 3
  have m4 : w &&& 0xFF00000000 = 0x0400000000 ↔ wordOp w = 4 := and_opMask_iff w 4
  have m5 : w &&& 0xFFFFFFFFFF = 0x0500000000 ↔ wordOp w = 5 ∧ wordA w = 0 ∧ wordB w = 0 := and_fullMask_iff w 5
  have m6 : w &&& 0xFF00000000 = 0x0600000000 ↔ wordOp w = 6 := and_opMask_iff w 6
  have m7 : w &&& 0xFF00000000 = 0x0700000000 ↔ wordOp w = 7 := and_opMask_iff w 7
  have hhz : hz = w.extractLsb' 0 32 ↔ wordA w = hz.extractLsb' 16 16 ∧ wordB w = hz.extractLsb' 0 16 := by
    rw [← wordA_append_wordB, eq_comm, append_eq_iff_halves]
  simp only [m1, m2, m3, m4, m5, m6, m7, hhz, decode_wordBytes, decodeWord_ok, wordOf, payloadOf,
    eq_commandWord_iff, Instr.isCommand, Instr.wf, Instr.payloadOk, Instr.canonical, wordOp, wordA, wordB]
  clear m1 m2 m3 m4 m5 m6 m7 hhz
  -- Each row now asks for the same fields on both sides.
  refine ⟨?_, ?_, ?_, ?_, ?_, ?_, ?_⟩ <;> grind

/-- Settles O18: bytes that decode to a command are its word and its payload, bytes that decode to a frame are that
frame's. -/
theorem encodeOfDecodeIsWord : Obligations.EncodeOfDecodeIsWord := by
  unfold Obligations.EncodeOfDecodeIsWord
  exact fun _ _ h => encode_decode h

/-- Settles O14: one pixel has the two bytes of a value, and `receiveStream` takes it as data. -/
theorem onePixelStreamIsDataFrame : Obligations.OnePixelStreamIsDataFrame := by
  unfold Obligations.OnePixelStreamIsDataFrame
  exact ⟨fun _ _ => ⟨rfl, rfl⟩, fun _ => ⟨rfl, rfl⟩⟩

/-- Settles O19, by evaluating the decoder on each word. -/
theorem knownWordsDecode : Obligations.KnownWordsDecode := by
  unfold Obligations.KnownWordsDecode
  decide

end Sys2Proof.Machine
end

section
/-! SUPPORT. A command of one or two frames from acceptance to its end in normal operation (40_register_write.md R70 to
R72), what a frame leaves in the controller, and the events of any command (R73, 41_pixel_stream.md R83). -/

namespace Sys2Proof.Machine

/-! ### What brackets leave in the block -/

/-- With chip-select inactive in the end and no failure, these events went out, and the reset line, the bus configuration
and the host are as before. -/
structure Sent (es : List Event) (s t : State) : Prop where
  trace : t.trace = s.trace ++ es
  csN : t.csN = .high
  rstN : t.rstN = s.rstN
  speed : SpeedSame s t
  fault : t.fault = s.fault
  completions : t.completions = s.completions
  host : HostSame s t
  env : t.env.allOk = true

theorem SpeedSame.trans {s t u : State} (h : SpeedSame s t) (h' : SpeedSame t u) : SpeedSame s u := by
  obtain ⟨hz, ha, hm⟩ := h
  obtain ⟨hz', ha', hm'⟩ := h'
  exact ⟨hz'.trans hz, ha'.trans ha, hm'.trans hm⟩

theorem Bracketed.of_setSeq {f : List Byte} {l : List MicroOp} {s t : State} (h : Bracketed f (s.setSeq l) t) :
    Bracketed f s t :=
  ⟨h.trace, h.csN, h.rstN, h.speed, h.fault, h.completions, h.host, h.env, h.seen⟩

theorem Bracketed.sent {f : List Byte} {s t : State} (h : Bracketed f s t) : Sent (bracketEvents f) s t :=
  ⟨h.trace, h.csN, h.rstN, h.speed, h.fault, h.completions, h.host, h.env⟩

theorem Sent.trans {es es' : List Event} {s t u : State} (h : Sent es s t) (h' : Sent es' t u) :
    Sent (es ++ es') s u where
  trace := by rw [h'.trace, h.trace, List.append_assoc]
  csN := h'.csN
  rstN := h'.rstN.trans h.rstN
  speed := h.speed.trans h'.speed
  fault := h'.fault.trans h.fault
  completions := h'.completions.trans h.completions
  host := h.host.trans h'.host
  env := h'.env

/-- The sequencer's last step (R24) after a block that had no failure. -/
theorem Sent.endsWell {es : List Event} {s t : State} (h : Sent es s t) (hf : s.fault = 0) :
    EndsWell s (complete codeNone none (t.setSeq [])) :=
  ⟨h.csN, rfl, h.fault.trans hf, by simp [h.completions, codeNone], h.env⟩

/-- In normal operation a command of one frame sends its bracket and completes with code 0. -/
theorem runCommand_oneBracket (f : List Byte) {s : State} (h : NormalOperation s) :
    ∃ t, Bracketed f s t ∧ runCommand true id none (bracket f) s = complete codeNone none (t.setSeq []) := by
  obtain ⟨hf, hs, henv⟩ := h
  obtain ⟨t, ht, hft⟩ := performAll_bracket f [] (s := s.setSeq (bracket f)) henv
  rw [List.append_nil, if_pos rfl] at hft
  exact ⟨t, ht.of_setSeq, (runCommand_accepts hs hf).trans hft⟩

/-! ### What a frame leaves in the controller -/

theorem Bracketed.index_ctrl {a : U16} {s t : State} (h : Bracketed (indexFrameBytes a) s t) :
    t.ctrl = { (selectIndex a s).ctrl with rx := none } := by
  obtain ⟨u, hu, hfree, hctrl, -⟩ := h.seen
  rw [hctrl, receiveFrame_index, selectIndex_ctrl, selectIndex_ctrl, hu, hfree]

/-- The controller takes a value: the selected register holds it, or with index 0x0022 the GRAM location at `WPTR`, and no
other cell changes (R35, R36). -/
def TakesData (v : U16) (c c' : Controller) : Prop :=
  c'.sel = c.sel ∧
    (c.sel ≠ 0x0022 → Memory.read c'.regs c.sel.toNat = v ∧ SameOutside [c.sel.toNat] c.regs c'.regs ∧
      SameOutside [] c.gram c'.gram) ∧
    (c.sel = 0x0022 → Memory.read c'.gram c.wptr = v ∧ SameOutside [c.wptr] c.gram c'.gram ∧
      SameOutside [] c.regs c'.regs)

theorem sameOutside_refl (targets : List Nat) (m : Memory) : SameOutside targets m m := fun _ _ => rfl

theorem receiveData_takesData (v : U16) (s : State) : TakesData v s.ctrl (receiveData v s).ctrl := by
  by_cases hsel : s.ctrl.sel = 0x0022
  · rw [receiveData_pixel v hsel]
    exact ⟨rfl, fun hne => absurd hsel hne,
      fun _ => ⟨Memory.read_write_same _ _ _, sameOutside_write _ _ _, sameOutside_refl _ _⟩⟩
  · obtain ⟨hread, hregs, hgram, hsel'⟩ := receiveData_register_cells v hsel
    exact ⟨hsel', fun _ => ⟨hread, hregs, hgram ▸ sameOutside_refl _ _⟩, fun heq => absurd heq hsel⟩

theorem Bracketed.takesData {v : U16} {s t : State} (h : Bracketed (dataFrameBytes v) s t) :
    TakesData v s.ctrl t.ctrl := by
  obtain ⟨u, hu, -, hctrl, -⟩ := h.seen
  have hdata : TakesData v u.ctrl t.ctrl := by
    rw [hctrl, receiveFrame_data]
    exact receiveData_takesData v u
  rw [hu] at hdata
  exact hdata

/-! ### The events of a command -/

/-- The events of a micro-operation that succeeds (R20 to R23). -/
def MicroOp.events : MicroOp → List Event
  | .driveCs l => [.cs l]
  | .driveRst l => [.rst l]
  | .txFrame f => f.map .tx
  | .wait ms => [.wait ms]

theorem perform_events (u : MicroOp) {s : State} (h : s.env.allOk = true) :
    ∃ t, perform u s = .done t ∧ t.trace = s.trace ++ u.events ∧ t.env.allOk = true := by
  cases u with
  | driveCs l =>
    obtain ⟨e, he, hp⟩ := driveCs_ok l h
    exact ⟨_, hp, by simp [MicroOp.events], by simpa using he⟩
  | driveRst l =>
    obtain ⟨e, he, hp⟩ := driveRst_ok l h
    exact ⟨_, hp, by simp [MicroOp.events], by simpa using he⟩
  | txFrame f =>
    obtain ⟨e, he, hp⟩ := txFrame_ok f h
    exact ⟨_, hp, by simp [MicroOp.events], by simpa using he⟩
  | wait ms => exact ⟨_, perform_wait ms s, by simp [MicroOp.events], by simpa using h⟩

theorem performAll_trace (l : List MicroOp) {s : State} (h : s.env.allOk = true) :
    (performAll l s).trace = s.trace ++ l.flatMap MicroOp.events := by
  induction l generalizing s with
  | nil => simp [performAll]
  | cons u rest ih =>
    obtain ⟨t, hp, htrace, henv⟩ := perform_events u h
    by_cases hr : rest = []
    · simp [performAll, hp, hr, htrace]
    · simp [performAll, hp, hr, htrace, ih henv]

/-- In normal operation a well-formed command appends the events of its expansion, and nothing else. -/
theorem exec_trace {i : Instr} {s t : State} (hn : NormalOperation s) (hwf : i.wf = true) (hi : i.isCommand = true)
    (h : exec i s = .next t) : t.trace = s.trace ++ (expansionOf i).flatMap MicroOp.events := by
  obtain ⟨hf, hs, henv⟩ := hn
  have himm : (immediateOf i s).trace = s.trace ∧ (immediateOf i s).env = s.env := by
    rcases immediateOf_cases i with himm | ⟨hz, -, himm⟩ <;> rw [himm] <;> exact ⟨rfl, rfl⟩
  have hpayload : i.payloadOk = true := (Bool.and_eq_true_iff.mp hwf).1
  rw [exec_command hi, hpayload] at h
  cases h
  cases hexp : expansionOf i with
  | nil =>
    rw [runCommand_immediate hs hf]
    simp [himm.1]
  | cons u rest =>
    rw [runCommand_accepts hs hf, performAll_trace _ (by simpa [himm.2] using henv)]
    simp [himm.1]

end Sys2Proof.Machine
end

section
/-! SUPPORT. Two expansions given as one command, or one after the other (40_register_write.md R72): no micro-
operation reads what the host was handed, so the second runs as it would have inside the first. -/

namespace Sys2Proof.Machine

/-! ### Updates the micro-operations do not touch -/

/-- An update of parts of the state that no micro-operation reads or writes: it may come before or after each update the
micro-operations are made of. -/
structure Unread (g : State → State) : Prop where
  ctrl : ∀ s, (g s).ctrl = s.ctrl
  free : ∀ s, (g s).free = s.free
  env : ∀ s, (g s).env = s.env
  setCtrl : ∀ c s, (g s).setCtrl c = g (s.setCtrl c)
  setCtrlFree : ∀ c s, (g s).setCtrlFree c = g (s.setCtrlFree c)
  pushTrace : ∀ e s, (g s).pushTrace e = g (s.pushTrace e)
  setCsN : ∀ l s, (g s).setCsN l = g (s.setCsN l)
  setRstN : ∀ l s, (g s).setRstN l = g (s.setRstN l)
  setEnv : ∀ e s, (g s).setEnv e = g (s.setEnv e)

/-- The same outcome, in the state so updated. -/
def Performed.map (g : State → State) : Performed → Performed
  | .done t => .done (g t)
  | .failed f t => .failed f (g t)
  | .hung => .hung

section
variable {g : State → State} (hg : Unread g)
include hg

theorem Unread.openDownstream (s : State) : openDownstream (g s) = g (openDownstream s) := by
  simp only [Machine.openDownstream, hg.ctrl, hg.free, hg.setCtrlFree]

theorem Unread.selectIndex (a : U16) (s : State) : selectIndex a (g s) = g (selectIndex a s) := by
  simp only [Machine.selectIndex, openWptr, hg.ctrl, hg.free, hg.setCtrl, hg.setCtrlFree, apply_ite g]

theorem Unread.writePixel (p : Pixel) (s : State) : writePixel p (g s) = g (writePixel p s) := by
  simp only [Machine.writePixel, hg.ctrl, hg.free, hg.setCtrlFree]

theorem Unread.writePixels (ps : List Pixel) (s : State) : writePixels ps (g s) = g (writePixels ps s) := by
  induction ps generalizing s with
  | nil => rfl
  | cons p ps ih => rw [Machine.writePixels, hg.writePixel, ih, Machine.writePixels]

theorem Unread.receiveData (v : U16) (s : State) : receiveData v (g s) = g (receiveData v s) := by
  simp only [Machine.receiveData, writeRegister, openWptr, hg.writePixel, hg.ctrl, hg.free, hg.setCtrl,
    hg.setCtrlFree, apply_ite g]

theorem Unread.receiveStream (ps : List Pixel) (s : State) : receiveStream ps (g s) = g (receiveStream ps s) := by
  match ps with
  | [] => exact hg.openDownstream s
  | [v] => exact hg.receiveData v s
  | p :: q :: qs => simp only [Machine.receiveStream, hg.writePixels, hg.openDownstream, hg.ctrl, apply_ite g]

theorem Unread.receiveFrame (f : List Byte) (s : State) : receiveFrame f (g s) = g (receiveFrame f s) := by
  cases h : decodeFrame f with
  | error e => rw [receiveFrame_error h, receiveFrame_error h, hg.openDownstream]
  | ok i =>
    rw [receiveFrame_ok h, receiveFrame_ok h]
    cases i with
    | idxframe a => exact hg.selectIndex a s
    | gramsel => exact hg.selectIndex Config.gramReg s
    | datframe v => exact hg.receiveData v s
    | pixframe ps => exact hg.receiveStream ps s
    | _ => exact hg.openDownstream s

theorem Unread.observe (e : Event) (s : State) : observe e (g s) = g (observe e s) := by
  cases e with
  | cs d =>
    cases d with
    | low => simp only [Machine.observe, hg.ctrl, hg.setCtrl]
    | high => cases h : s.ctrl.rx <;> simp only [Machine.observe, hg.ctrl, h, hg.setCtrl, hg.receiveFrame]
  | rst d => cases d with
    | low => exact hg.openDownstream s
    | high => rfl
  | tx b => simp only [Machine.observe, hg.ctrl, hg.setCtrl]
  | wait ms => rfl
  | fail k => rfl

theorem Unread.emit (e : Event) (s : State) : emit e (g s) = g (emit e s) := by
  rw [Machine.emit, hg.pushTrace, hg.observe, Machine.emit]

theorem Unread.emitBytes (f : List Byte) (s : State) : emitBytes f (g s) = g (emitBytes f s) := by
  induction f generalizing s with
  | nil => rfl
  | cons b f ih => rw [Machine.emitBytes, hg.emit, ih, Machine.emitBytes]

theorem Unread.perform (u : MicroOp) (s : State) : perform u (g s) = (perform u s).map g := by
  cases u with
  | driveCs d =>
    rcases h : askGpio s.env with ⟨a, e⟩
    cases a <;> simp only [Machine.perform, driveCs, hg.env, h, hg.setCsN, hg.setEnv, hg.emit, Performed.map]
  | driveRst d =>
    rcases h : askGpio s.env with ⟨a, e⟩
    cases a <;> simp only [Machine.perform, driveRst, hg.env, h, hg.setRstN, hg.setEnv, hg.emit, Performed.map]
  | txFrame f =>
    rcases h : askXfer s.env with ⟨a, e⟩
    cases a <;> simp only [Machine.perform, txFrame, hg.env, h, hg.setEnv, hg.emitBytes, Performed.map]
  | wait ms => exact congrArg Performed.done (hg.emit (.wait ms) s)

end

/-- What the host was handed, put in place of what it had been handed. -/
def State.setCompletions (cs : List Completion) (s : State) : State := { s with completions := cs }

theorem unread_setCompletions (cs : List Completion) : Unread (State.setCompletions cs) := by
  constructor <;> intros <;> rfl

/-- What was handed to the host before a run changes only what it has been handed after it. -/
theorem performAll_setCompletions (l : List MicroOp) (cs : List Completion) (s : State) :
    ∃ cs', performAll l (s.setCompletions cs) = (performAll l s).setCompletions cs' := by
  induction l generalizing s with
  | nil => exact ⟨cs, rfl⟩
  | cons u rest ih =>
    simp only [performAll, (unread_setCompletions cs).perform]
    cases perform u s with
    | done t =>
      by_cases hr : rest = []
      · simp only [Performed.map, hr]
        exact ⟨cs ++ [⟨codeNone, none⟩], rfl⟩
      · simpa only [Performed.map, if_neg hr] using ih t
    | failed f t => exact ⟨cs ++ [⟨f.code, none⟩], rfl⟩
    | hung => exact ⟨cs, rfl⟩

/-! ### One expansion before another -/

theorem perform_done_fault {u : MicroOp} {s t : State} (h : perform u s = .done t) : t.fault = s.fault := by
  rcases perform_cases u s with ⟨l, e, -, hp⟩ | ⟨l, e, -, hp⟩ | ⟨f, e, -, hp⟩ | ⟨ms, -, hp⟩ | ⟨g, e, hp, -⟩ |
    ⟨f, k, e, -, hp⟩ | hp
  all_goals rw [hp] at h; cases h
  all_goals simp

/-- All that an expansion can do when another follows it: every micro-operation is done and the other runs next, or a
failure ends both, or the environment does not answer. -/
theorem performAll_append_cases (u : MicroOp) (rest : List MicroOp) {l : List MicroOp} (hl : l ≠ []) (s : State) :
    (∃ t, t.fault = s.fault ∧ performAll (u :: rest) s = advance [] t ∧
      performAll (u :: rest ++ l) s = performAll l t) ∨
    (∃ f t, performAll (u :: rest) s = failCommand f t ∧ performAll (u :: rest ++ l) s = failCommand f t) ∨
    (performAll (u :: rest) s).seq ≠ [] := by
  induction rest generalizing u s with
  | nil =>
    cases hp : perform u s with
    | done t => exact .inl ⟨t, perform_done_fault hp, by simp [performAll, hp], by simp [performAll, hp, hl]⟩
    | failed f t => exact .inr (.inl ⟨f, t, by simp [performAll, hp], by simp [performAll, hp]⟩)
    | hung => exact .inr (.inr (by simp [performAll, hp]))
  | cons v rest ih =>
    rw [performAll, List.cons_append, performAll]
    cases hp : perform u s with
    | done t => simpa [perform_done_fault hp] using ih v t
    | failed f t => exact .inr (.inl ⟨f, t, rfl, rfl⟩)
    | hung => exact .inr (.inr (by simp))

theorem recordFault_ne_zero (old : BitVec 3) (f : Failure) : recordFault old f.code ≠ 0 := by
  unfold recordFault
  split
  · exact f.code_ne_zero
  · assumption

/-- A command that ends, and then another, leave what one command with both expansions leaves, but for what the host is
handed: each command has a completion of its own. -/
theorem runCommand_append {l l' : List MicroOp} (hl : l ≠ []) (hl' : l' ≠ []) {s : State} (hs : s.seq = [])
    (hend : (runCommand true id none l s).seq = []) :
    ∃ cs, runCommand true id none l' (runCommand true id none l s) =
      (runCommand true id none (l ++ l') s).setCompletions cs := by
  obtain ⟨u, rest, rfl⟩ := List.exists_cons_of_ne_nil hl
  obtain ⟨u', rest', rfl⟩ := List.exists_cons_of_ne_nil hl'
  by_cases hf : s.fault = 0
  case neg =>
    rw [runCommand_refuses hs hf, runCommand_refuses hs hf, runCommand_refuses (s := complete codeFaulted none s) hs hf]
    exact ⟨_, rfl⟩
  have hfirst : runCommand true id none (u :: rest) s = performAll (u :: rest) s :=
    (runCommand_accepts hs hf).trans (performAll_setSeq ..)
  have hwhole : runCommand true id none (u :: rest ++ u' :: rest') s = performAll (u :: rest ++ u' :: rest') s :=
    (runCommand_accepts hs hf).trans (performAll_setSeq ..)
  rw [hfirst] at hend
  rw [hfirst, hwhole]
  rcases performAll_append_cases u rest hl' s with ⟨t, ht, hdone, hboth⟩ | ⟨f, t, hfail, hboth⟩ | hhung
  · rw [hdone, hboth, runCommand_accepts (s := advance [] t) rfl (ht.trans hf), id, performAll_setSeq,
      ← performAll_setSeq u' rest' [] t]
    exact performAll_setCompletions _ (t.completions ++ [⟨codeNone, none⟩]) (t.setSeq [])
  · rw [hfail, hboth, runCommand_refuses (by simp) (by simpa using recordFault_ne_zero t.fault f)]
    exact ⟨_, rfl⟩
  · exact absurd hend hhung

end Sys2Proof.Machine
end

section
/-! SUPPORT. The obligations about the register-write commands (40_register_write.md), each from the lemmas above. -/

namespace Sys2Proof.Machine

/-- Settles O3: one bracket, whose frame is `selectIndex` at the controller. -/
theorem wridxSendsIndexFrame : Obligations.WridxSendsIndexFrame := by
  unfold Obligations.WridxSendsIndexFrame
  intro addr s hn
  obtain ⟨t, ht, hrun⟩ := runCommand_oneBracket (indexFrameBytes addr) hn
  have hsent := ht.sent
  refine ⟨_, congrArg Host.Outcome.next hrun, hsent.trace, hsent.endsWell hn.1, hsent.rstN, hsent.speed, hsent.host, ?_⟩
  simp +contextual [ht.index_ctrl, selectIndex_ctrl, sameOutside_refl]

/-- Settles O4: one bracket, whose frame is `receiveData` at the controller. -/
theorem wrdatSendsDataFrame : Obligations.WrdatSendsDataFrame := by
  unfold Obligations.WrdatSendsDataFrame
  intro value s hn
  obtain ⟨t, ht, hrun⟩ := runCommand_oneBracket (dataFrameBytes value) hn
  have hsent := ht.sent
  exact ⟨_, congrArg Host.Outcome.next hrun, hsent.trace, hsent.endsWell hn.1, hsent.rstN, hsent.speed, hsent.host,
    ht.takesData⟩

/-- Settles O5: two brackets, of which the second finds the controller as `selectIndex` left it. -/
theorem wrregWritesRegister : Obligations.WrregWritesRegister := by
  unfold Obligations.WrregWritesRegister
  intro addr value s hn
  obtain ⟨t, u, ht, hu, hrun⟩ := runCommand_twoBrackets (indexFrameBytes addr) (dataFrameBytes value) hn
  have hsent := ht.of_setSeq.sent.trans hu.sent
  obtain ⟨hsel, hreg, hpixel⟩ := hu.takesData
  have hctrl := ht.of_setSeq.index_ctrl
  refine ⟨_, congrArg Host.Outcome.next hrun, hsent.trace, hsent.endsWell hn.1, hsent.rstN, hsent.speed, hsent.host,
    hsel.trans ht.index_sel, fun haddr => ?_, fun haddr => ?_⟩
  · simpa [hctrl, selectIndex_ctrl] using hreg (ht.index_sel ▸ haddr)
  · simpa [hctrl, selectIndex_ctrl, haddr] using hpixel (ht.index_sel ▸ haddr)

/-- Settles O38: `WRREG` has both expansions, and they run as they run in two commands. -/
theorem wrregIsWridxThenWrdat : Obligations.WrregIsWridxThenWrdat := by
  unfold Obligations.WrregIsWridxThenWrdat
  intro addr value s t1 hs h1 hend
  cases h1
  obtain ⟨cs, h⟩ := runCommand_append (l := expandWridx addr) (l' := expandWrdat value) (List.cons_ne_nil _ _)
    (List.cons_ne_nil _ _) hs hend
  exact ⟨_, _, congrArg Host.Outcome.next h, rfl, rfl, rfl, rfl, rfl, rfl, rfl, rfl⟩

/-- Settles O46: the events of each expansion, counted. -/
theorem eventCounts : Obligations.EventCounts := by
  unfold Obligations.EventCounts
  intro i s t hn hwf hi h
  rw [exec_trace hn hwf hi h, List.length_append]
  congr 1
  cases i with
  | strm width height buf =>
    have hlen : buf.length = width.toNat * height.toNat := (Instr.wf_strm width height buf).mp hwf
    simp [expansionOf, expandStrm, bracket, MicroOp.events, indexFrameBytes, streamFrameBytes, pixelBytes_length, hlen]
    omega
  | idxframe _ | datframe _ | gramsel | pixframe _ => nomatch hi
  | wridx _ | wrdat _ | wrreg _ _ | rstp | pack _ _ _ | setspd _ => rfl

end Sys2Proof.Machine
end

section
/-! SUPPORT. The byte list of a packed buffer (41_pixel_stream.md R81) and its place at the output of `PACK`
(42_pixel_pack.md R90, R92). -/

namespace Sys2Proof

/-- R81: the two bytes of pixel `i` stand at `2 * i` and `2 * i + 1`, high byte first. -/
theorem pixelBytes_getElem? {buf : List Pixel} {i : Nat} {p : Pixel} (h : buf[i]? = some p) :
    (pixelBytes buf)[2 * i]? = some (hiByte p) ∧ (pixelBytes buf)[2 * i + 1]? = some (loByte p) := by
  induction buf generalizing i with
  | nil => cases h
  | cons q qs ih =>
    cases i with
    | zero =>
      cases h
      exact ⟨rfl, rfl⟩
    | succ i => exact ih h

end Sys2Proof

namespace Sys2Proof.Machine

@[simp] theorem hiByte_packPixel (x : Rgb) : hiByte (packPixel x) =
    (pack565 (x.extractLsb' 16 8) (x.extractLsb' 8 8) (x.extractLsb' 0 8)).1 :=
  hiByte_joinBytes _ _

@[simp] theorem loByte_packPixel (x : Rgb) : loByte (packPixel x) =
    (pack565 (x.extractLsb' 16 8) (x.extractLsb' 8 8) (x.extractLsb' 0 8)).2 :=
  loByte_joinBytes _ _

end Sys2Proof.Machine
end

section
/-! SUPPORT. What the two frames of `STRM` leave in the controller (20_memory.md R34, R36). -/

namespace Sys2Proof.Machine

theorem Bracketed.index_free {a : U16} {s t : State} (h : Bracketed (indexFrameBytes a) s t) :
    t.free = (selectIndex a s).free := by
  obtain ⟨u, -, hfree, -, hfree'⟩ := h.seen
  rw [hfree', receiveFrame_index, selectIndex_free, selectIndex_free, hfree]

/-- A bracket with a stream frame, index 0x0022 being selected, writes its pixels where `WPTR` passes (R36). -/
theorem Bracketed.stream_ctrl {ps : List Pixel} {s t : State} (h : Bracketed (streamFrameBytes ps) s t)
    (hsel : s.ctrl.sel = 0x0022) (hne : ps ≠ []) :
    t.ctrl.gram = Memory.writeAll s.ctrl.gram ((pixelTargets s.ctrl.regs ps.length s.free s.ctrl.wptr).zip ps) ∧
      t.ctrl.regs = s.ctrl.regs ∧ t.ctrl.sel = 0x0022 := by
  obtain ⟨u, hu, hfree, hctrl, -⟩ := h.seen
  have husel : u.ctrl.sel = 0x0022 := by rw [hu, hsel]
  obtain ⟨hgram, hregs, hsel'⟩ := writePixels_ctrl ps u
  rw [hctrl, receiveFrame_stream, receiveStream_gram husel hne, hgram, hregs, hsel', husel, hu, hfree]
  exact ⟨rfl, rfl, rfl⟩

theorem exec_strm {w h : U16} {buf : List Pixel} (hlen : buf.length = w.toNat * h.toNat) (s : State) :
    exec (.strm w h buf) s = .next (runCommand true id none (expandStrm buf) s) := by
  have hpayload : Instr.payloadOk (.strm w h buf) = true := decide_eq_true hlen
  rw [exec_command rfl, hpayload]
  rfl

theorem append_strmEvents (trace : List Event) (buf : List Pixel) : trace ++ strmEvents buf =
    trace ++ [.cs .low, .tx 0x70, .tx 0x00, .tx 0x22, .cs .high, .cs .low, .tx 0x72] ++
      (pixelBytes buf).map Event.tx ++ [.cs .high] := by
  simp [strmEvents, bracketEvents]

end Sys2Proof.Machine
end

section
/-! SUPPORT. The obligations about the pixel stream (41_pixel_stream.md), each from the lemmas above. -/

namespace Sys2Proof.Machine

/-- Settles O6: two brackets, of which the second finds the controller as the GRAM select left it. -/
theorem strmStreamsWholeBuffer : Obligations.StrmStreamsWholeBuffer := by
  unfold Obligations.StrmStreamsWholeBuffer
  intro w h buf s hn hlen
  obtain ⟨t, u, ht, hu, hrun⟩ := runCommand_twoBrackets (indexFrameBytes 0x0022) (streamFrameBytes buf) hn
  replace ht := ht.of_setSeq
  have hsent := ht.sent.trans hu.sent
  refine ⟨_, (exec_strm hlen s).trans (congrArg Host.Outcome.next hrun), hsent.trace.trans (append_strmEvents _ buf),
    hsent.endsWell hn.1, hsent.rstN, hsent.speed, hsent.host, fun hne => ?_⟩
  obtain ⟨hgram, hregs, hsel⟩ := hu.stream_ctrl ht.index_sel hne
  simp only [ht.index_free, ht.index_ctrl, selectIndex_ctrl] at hgram hregs
  simp only [selectIndex_ctrl]
  exact ⟨hsel, hgram, hgram ▸ sameOutside_writeAll_zip _ _ _, hregs ▸ sameOutside_refl _ _⟩

/-- Settles O20: the place of each pixel's bytes, and for the output of `PACK` which bytes they are. -/
theorem pixelBytesHighByteFirst : Obligations.PixelBytesHighByteFirst := by
  unfold Obligations.PixelBytesHighByteFirst
  refine ⟨fun buf => ⟨pixelBytes_length buf, fun i p => pixelBytes_getElem?⟩, fun inbuf i x hx => ?_⟩
  have hp : (inbuf.map packPixel)[i]? = some (packPixel x) := by rw [List.getElem?_map, hx, Option.map_some]
  simpa using pixelBytes_getElem? hp

end Sys2Proof.Machine
end

section
/-! SUPPORT. Bit fields of one word: what a field of a field, a shift and a mask leave of it (42_pixel_pack.md R93). -/

namespace Sys2Proof

theorem extractLsb'_of_field {w n start n' start' : Nat} (x : BitVec w) (h : start' + n' ≤ n) :
    (x.extractLsb' start n).extractLsb' start' n' = x.extractLsb' (start + start') n' := by
  ext i hi
  have hin : start' + i < n := by omega
  simp [hin, Nat.add_assoc]

/-- R93: a right shift is logical, so it leaves the upper field in a word of the old width. -/
theorem ushiftRight_eq_field {w : Nat} (x : BitVec w) (start n : Nat) (h : start + n = w) :
    x >>> start = (x.extractLsb' start n).setWidth w := by
  ext i hi
  by_cases hin : i < n
  · simp [hin]
  · have hout : x.getLsbD (start + i) = false := BitVec.getLsbD_of_ge _ _ (by omega)
    simp [hin, hout]

theorem and_allOnes_eq_field {w : Nat} (x : BitVec w) (n : Nat) :
    x &&& (BitVec.allOnes n).setWidth w = (x.extractLsb' 0 n).setWidth w := by
  ext i hi
  simp [Bool.and_comm, BitVec.getLsbD_eq_getElem hi]

/-- The mask of R90 and R94, `& 7`. -/
theorem and_seven_eq_field (x : BitVec 8) : x &&& 0x07 = (x.extractLsb' 0 3).setWidth 8 :=
  and_allOnes_eq_field x 3

end Sys2Proof
end

section
/-! SUPPORT. `pack565` and the packed pixel by the fields of the channels (42_pixel_pack.md R90, R91), and `PACK` (R92). -/

namespace Sys2Proof.Machine

/-! ### The two bytes (R90) -/

theorem packByte0_eq_fields (r g : BitVec 8) :
    packByte0 r g = (r.extractLsb' 3 5 ++ g.extractLsb' 5 3 : BitVec (5 + 3)) :=
  calc packByte0 r g = (r >>> 3) <<< 3 ||| g >>> 5 := by rw [packByte0, ← BitVec.shiftRight_add]
    _ = (r.extractLsb' 3 5 ++ g.extractLsb' 5 3).setWidth 8 := by
      rw [ushiftRight_eq_field r 3 5 rfl, ushiftRight_eq_field g 5 3 rfl,
        BitVec.setWidth_append_eq_shiftLeft_setWidth_or]
    _ = r.extractLsb' 3 5 ++ g.extractLsb' 5 3 := BitVec.setWidth_eq _

theorem packByte1_eq_fields (g b : BitVec 8) :
    packByte1 g b = (g.extractLsb' 2 3 ++ b.extractLsb' 3 5 : BitVec (3 + 5)) :=
  calc packByte1 g b = ((g >>> 2) &&& 0x07) <<< 5 ||| b >>> 3 := BitVec.or_comm _ _
    _ = (g.extractLsb' 2 3 ++ b.extractLsb' 3 5).setWidth 8 := by
      rw [and_seven_eq_field, ushiftRight_eq_field g 2 6 rfl, ushiftRight_eq_field b 3 5 rfl,
        BitVec.extractLsb'_setWidth_of_le (by decide), extractLsb'_of_field _ (by decide),
        BitVec.setWidth_append_eq_shiftLeft_setWidth_or]
    _ = g.extractLsb' 2 3 ++ b.extractLsb' 3 5 := BitVec.setWidth_eq _

/-- The kept bits of green stand in both bytes, three in each. -/
theorem green_append (g : BitVec 8) : (g.extractLsb' 5 3 ++ g.extractLsb' 2 3 : BitVec (3 + 3)) = g.extractLsb' 2 6 :=
  BitVec.extractLsb'_append_extractLsb'_eq_extractLsb' rfl

theorem packBytes_eq_fields (r g b : BitVec 8) : joinBytes (packByte0 r g) (packByte1 g b) =
    (r.extractLsb' 3 5 ++ g.extractLsb' 2 6 ++ b.extractLsb' 3 5 : BitVec (5 + 6 + 5)) := by
  rw [joinBytes, packByte0_eq_fields, packByte1_eq_fields, ← green_append, BitVec.append_assoc',
    BitVec.append_assoc (x₁ := r.extractLsb' 3 5)]
  rfl

/-- R94 (c): the two bytes recover the kept bits of green. -/
theorem packBytes_green (r g b : BitVec 8) :
    ((packByte0 r g &&& 0x07) <<< 3) ||| (packByte1 g b >>> 5) = g >>> 2 := by
  have hupper : (packByte0 r g).extractLsb' 0 3 = g.extractLsb' 5 3 := by
    rw [packByte0_eq_fields, BitVec.extractLsb'_append_eq_right]
  have hlower : (packByte1 g b).extractLsb' 5 3 = g.extractLsb' 2 3 := by
    rw [packByte1_eq_fields, BitVec.extractLsb'_append_eq_left]
  rw [and_seven_eq_field, hupper, ushiftRight_eq_field (packByte1 g b) 5 3 rfl, hlower,
    ← BitVec.setWidth_append_eq_shiftLeft_setWidth_or, green_append, ← ushiftRight_eq_field g 2 6 rfl]

/-! ### The packed pixel (R91) -/

/-- The channels of an RGB888 word stand at the bits of R58. -/
theorem packPixel_append (r g b : BitVec 8) : packPixel (r ++ g ++ b : BitVec (8 + 8 + 8)) =
    joinBytes (packByte0 r g) (packByte1 g b) := by
  have hred : (r ++ g ++ b).extractLsb' 16 8 = r :=
    (BitVec.extractLsb'_append_eq_of_le (by decide)).trans BitVec.extractLsb'_append_eq_left
  have hgreen : (r ++ g ++ b).extractLsb' 8 8 = g :=
    (BitVec.extractLsb'_append_eq_of_le (by decide)).trans BitVec.extractLsb'_append_eq_right
  have hblue : (r ++ g ++ b).extractLsb' 0 8 = b := BitVec.extractLsb'_append_eq_right
  rw [packPixel, hred, hgreen, hblue, pack565]

theorem packPixel_eq_fields (x : Rgb) :
    packPixel x = (x.extractLsb' 19 5 ++ x.extractLsb' 10 6 ++ x.extractLsb' 3 5 : BitVec (5 + 6 + 5)) := by
  rw [packPixel, pack565, packBytes_eq_fields, extractLsb'_of_field _ (by decide), extractLsb'_of_field _ (by decide),
    extractLsb'_of_field _ (by decide)]

/-- R91: red stands in bits 15 to 11, green in 10 to 5 and blue in 4 to 0. -/
theorem pixelFields_append (r : BitVec 5) (g : BitVec 6) (b : BitVec 5) :
    (r ++ g ++ b).extractLsb' 11 5 = r ∧ (r ++ g ++ b).extractLsb' 5 6 = g ∧ (r ++ g ++ b).extractLsb' 0 5 = b :=
  ⟨(BitVec.extractLsb'_append_eq_of_le (by decide)).trans BitVec.extractLsb'_append_eq_left,
    (BitVec.extractLsb'_append_eq_of_le (by decide)).trans BitVec.extractLsb'_append_eq_right,
    BitVec.extractLsb'_append_eq_right⟩

theorem pixelFields_inj {r r' : BitVec 5} {g g' : BitVec 6} {b b' : BitVec 5} :
    r ++ g ++ b = r' ++ g' ++ b' ↔ r = r' ∧ g = g' ∧ b = b' := by
  constructor
  · intro h
    obtain ⟨hr, hg, hb⟩ := pixelFields_append r g b
    obtain ⟨hr', hg', hb'⟩ := pixelFields_append r' g' b'
    rw [h] at hr hg hb
    exact ⟨hr.symm.trans hr', hg.symm.trans hg', hb.symm.trans hb'⟩
  · rintro ⟨rfl, rfl, rfl⟩
    rfl

theorem pixelFields_eq_or (r : BitVec 5) (g : BitVec 6) (b : BitVec 5) :
    (r ++ g ++ b : BitVec (5 + 6 + 5)) = r.setWidth 16 <<< 11 ||| g.setWidth 16 <<< 5 ||| b.setWidth 16 :=
  (BitVec.setWidth_eq _).symm.trans BitVec.setWidth_append_append_eq_shiftLeft_setWidth_or

/-! ### `PACK` (R92) -/

theorem exec_pack {w h : U16} {inbuf : List Rgb} (hlen : inbuf.length = w.toNat * h.toNat) {s : State}
    (hfault : s.fault = 0) (hseq : s.seq = []) :
    exec (.pack w h inbuf) s = .next (complete 0 (some (inbuf.map packPixel)) s) := by
  have hpayload : Instr.payloadOk (.pack w h inbuf) = true := decide_eq_true hlen
  have hstays : s.setSeq [] = s := by rw [← hseq]; rfl
  rw [exec_command rfl, hpayload]
  exact congrArg Host.Outcome.next ((runCommand_immediate hseq hfault).trans (congrArg _ hstays))

end Sys2Proof.Machine
end

section
/-! SUPPORT. The obligations about the pixel packing (42_pixel_pack.md), each from the lemmas above. -/

namespace Sys2Proof.Machine

/-- Settles O8: the result buffer is the input's image under `packPixel`. -/
theorem packReturnsPackedBuffer : Obligations.PackReturnsPackedBuffer := by
  unfold Obligations.PackReturnsPackedBuffer
  intro w h inbuf s hfault hseq hlen
  refine ⟨inbuf.map packPixel, exec_pack hlen hfault hseq, (List.length_map packPixel).trans hlen, fun i x hx => ?_⟩
  rw [List.getElem?_map, hx, Option.map_some, packPixel_eq_fields]

/-- Settles O47: a shifted channel is its kept field, and each field stands where it is read. -/
theorem packedFieldsRecoverChannels : Obligations.PackedFieldsRecoverChannels := by
  unfold Obligations.PackedFieldsRecoverChannels
  intro r g b p bytes
  have hp : p = (r.extractLsb' 3 5 ++ g.extractLsb' 2 6 ++ b.extractLsb' 3 5 : BitVec (5 + 6 + 5)) :=
    (packPixel_append r g b).trans (packBytes_eq_fields r g b)
  obtain ⟨hred, hgreen, hblue⟩ := pixelFields_append (r.extractLsb' 3 5) (g.extractLsb' 2 6) (b.extractLsb' 3 5)
  refine ⟨?_, ?_, ?_, packBytes_green r g b, packPixel_append r g b⟩
  · rw [hp, hred, ushiftRight_eq_field r 3 5 rfl]
  · rw [hp, hgreen, ushiftRight_eq_field g 2 6 rfl]
  · rw [hp, hblue, ushiftRight_eq_field b 3 5 rfl]

/-- Settles O48: the form of R91 with shifts is the three fields, each shifted to its place. -/
theorem packedBitsOfChannels : Obligations.PackedBitsOfChannels := by
  unfold Obligations.PackedBitsOfChannels
  intro r g b
  refine ⟨packByte0_eq_fields r g, packByte1_eq_fields g b, ?_⟩
  rw [packPixel_append, packBytes_eq_fields, pixelFields_eq_or, ushiftRight_eq_field r 3 5 rfl,
    ushiftRight_eq_field g 2 6 rfl, ushiftRight_eq_field b 3 5 rfl]
  simp

/-- Settles O49: the packed pixel is its three fields, and no more. -/
theorem packedEqualJustWhenKeptBitsAgree : Obligations.PackedEqualJustWhenKeptBitsAgree := by
  unfold Obligations.PackedEqualJustWhenKeptBitsAgree
  intro x y
  rw [packPixel_eq_fields, packPixel_eq_fields]
  exact pixelFields_inj

end Sys2Proof.Machine
end

section
/-! SUPPORT. The reset line driven and held for a wait, three times in `RSTP` (43_system.md R100), and `SETSPD` (R101). -/

namespace Sys2Proof.Machine

/-! ### The reset line driven and held (R21, R23) -/

/-- The reset line, in the end at level `l`, was driven with these events and no failure; chip-select, the bus configuration
and the host are as before. Of the controller nothing is said (log entry 10). -/
structure RstDriven (es : List Event) (l : Level) (s t : State) : Prop where
  trace : t.trace = s.trace ++ es
  rstN : t.rstN = l
  csN : t.csN = s.csN
  speed : SpeedSame s t
  fault : t.fault = s.fault
  completions : t.completions = s.completions
  host : HostSame s t
  env : t.env.allOk = true

theorem RstDriven.of_setSeq {es : List Event} {l : Level} {ops : List MicroOp} {s t : State}
    (h : RstDriven es l (s.setSeq ops) t) : RstDriven es l s t :=
  ⟨h.trace, h.rstN, h.csN, h.speed, h.fault, h.completions, h.host, h.env⟩

theorem RstDriven.trans {es es' : List Event} {l l' : Level} {s t u : State} (h : RstDriven es l s t)
    (h' : RstDriven es' l' t u) : RstDriven (es ++ es') l' s u where
  trace := by rw [h'.trace, h.trace, List.append_assoc]
  rstN := h'.rstN
  csN := h'.csN.trans h.csN
  speed := h.speed.trans h'.speed
  fault := h'.fault.trans h.fault
  completions := h'.completions.trans h.completions
  host := h.host.trans h'.host
  env := h'.env

theorem performAll_driveRst_wait (l : Level) (ms : Nat) (rest : List MicroOp) {s : State} (h : s.env.allOk = true) :
    ∃ t, RstDriven [.rst l, .wait ms] l s t ∧
      performAll (.driveRst l :: .wait ms :: rest) s = if rest = [] then advance [] t else performAll rest t := by
  obtain ⟨e, he, hdrive⟩ := driveRst_ok l h
  refine ⟨emit (.wait ms) (emit (.rst l) ((s.setRstN l).setEnv e)), ?_, by simp [performAll, perform, hdrive, waitMs]⟩
  constructor <;> simp [SpeedSame, HostSame, he]

/-! ### `RSTP` (R100) -/

/-- In normal operation the pulse sends its six events, leaves the reset line inactive and completes with code 0. -/
theorem runCommand_expandRstp {s : State} (h : NormalOperation s) :
    ∃ t, RstDriven rstpEvents .high s t ∧
      runCommand true id none expandRstp s = complete codeNone none (t.setSeq []) := by
  obtain ⟨hf, hs, henv⟩ := h
  obtain ⟨t, ht, hrunT⟩ := performAll_driveRst_wait .high 10
    [.driveRst .low, .wait 10, .driveRst .high, .wait 50] (s := s.setSeq expandRstp) henv
  obtain ⟨u, hu, hrunU⟩ := performAll_driveRst_wait .low 10 [.driveRst .high, .wait 50] ht.env
  obtain ⟨v, hv, hrunV⟩ := performAll_driveRst_wait .high 50 [] hu.env
  rw [if_neg (List.cons_ne_nil _ _)] at hrunT hrunU
  rw [if_pos rfl] at hrunV
  refine ⟨v, (ht.of_setSeq.trans hu).trans hv, ?_⟩
  calc runCommand true id none expandRstp s
      = performAll expandRstp (s.setSeq expandRstp) := runCommand_accepts hs hf
    _ = performAll [.driveRst .low, .wait 10, .driveRst .high, .wait 50] t := hrunT
    _ = performAll [.driveRst .high, .wait 50] u := hrunU
    _ = complete codeNone none (v.setSeq []) := hrunV

/-! ### `SETSPD` (R101) -/

theorem State.setSeq_of_seq_eq {s : State} {l : List MicroOp} (h : s.seq = l) : s.setSeq l = s := by
  subst h
  rfl

theorem exec_setspd (hz : U32) {s : State} (hfault : s.fault = 0) (hseq : s.seq = []) :
    exec (.setspd hz) s = .next (complete 0 none (s.setSpeedHz hz)) := by
  have hstays : (s.setSpeedHz hz).setSeq [] = s.setSpeedHz hz := State.setSeq_of_seq_eq hseq
  rw [exec_command rfl]
  exact congrArg Host.Outcome.next ((runCommand_immediate hseq hfault).trans (congrArg _ hstays))

end Sys2Proof.Machine
end

section
/-! SUPPORT. The obligations about the system commands (43_system.md), each from the lemmas above. -/

namespace Sys2Proof.Machine

/-- Settles O7: three times the line is driven and held, and what each leaves as it was stays over all three. -/
theorem rstpPulsesResetLine : Obligations.RstpPulsesResetLine := by
  unfold Obligations.RstpPulsesResetLine
  intro s hn
  obtain ⟨t, ht, hrun⟩ := runCommand_expandRstp hn
  exact ⟨_, (exec_command rfl s).trans (congrArg Host.Outcome.next hrun), ht.trace, ht.rstN, ht.csN, rfl,
    ht.fault.trans hn.1, by simp [ht.completions, codeNone], ht.env, ht.speed, ht.host⟩

/-- Settles O9: `SETSPD` has no expansion, so it completes with its effect at acceptance. -/
theorem setspdWritesSpeedHz : Obligations.SetspdWritesSpeedHz := by
  unfold Obligations.SetspdWritesSpeedHz
  intro hz s hfault hseq
  exact exec_setspd hz hfault hseq

end Sys2Proof.Machine
end

section
/-! SUPPORT. The host's sequences in normal operation: what each step of one does, what a sequence put together of such
steps leaves, and what block reset leaves at the beginning of a construction (44_host_sequences.md R111 to R116). -/

namespace Sys2Proof.Machine

/-! ### Runs of the machine -/

/-- The machine runs from `s` to `t` in some number of steps. -/
def Reaches (s t : State) : Prop := ∃ n, Host.Core.run Sys2Proof.core n s = .next t

theorem run_succ {s u : State} (h : step s = .next u) (n : Nat) :
    Host.Core.run Sys2Proof.core (n + 1) s = Host.Core.run Sys2Proof.core n u := by
  have hstep : Sys2Proof.core.step s = .next u := h
  simp only [Host.Core.run, hstep]

theorem Reaches.refl (s : State) : Reaches s s := ⟨0, rfl⟩

theorem Reaches.head {s t u : State} (h : step s = .next t) : Reaches t u → Reaches s u := fun ⟨n, hn⟩ =>
  ⟨n + 1, (run_succ h n).trans hn⟩

theorem Reaches.trans {s t u : State} (h : Reaches s t) (h' : Reaches t u) : Reaches s u := by
  obtain ⟨n, hn⟩ := h
  induction n generalizing s with
  | zero => cases hn; exact h'
  | succ n ih =>
    cases hs : step s with
    | next v => exact .head hs (ih ((run_succ hs n).symm.trans hn))
    | fault r => nomatch r
    | refused r =>
      have hstep : Sys2Proof.core.step s = .refused r := hs
      simp [Host.Core.run, hstep] at hn

/-! ### What the host was handed last (R24, R92) -/

theorem lastCode_of_getLast? {s : State} {c : Completion} (h : s.completions.getLast? = some c) :
    lastCode s = c.code := by
  simp [lastCode, h]

theorem lastCode_of_append {s : State} {cs : List Completion} {c : Completion} (h : s.completions = cs ++ [c]) :
    lastCode s = c.code :=
  lastCode_of_getLast? (by simp [h])

@[simp] theorem lastCode_complete (c : BitVec 3) (r : Option (List Pixel)) (s : State) :
    lastCode (complete c r s) = c :=
  lastCode_of_append (complete_completions c r s)

/-- A completion without a buffer leaves the buffer the host holds. -/
theorem lastResult_of_append_none {s t : State} {code : BitVec 3} (h : t.completions = s.completions ++ [⟨code, none⟩]) :
    lastResult t = lastResult s := by
  simp [lastResult, h]

theorem lastResult_complete_some (c : BitVec 3) (buf : List Pixel) (s : State) :
    lastResult (complete c (some buf) s) = buf := by
  simp [lastResult]

/-! ### One step of a sequence -/

theorem step_check {h : OnFail} {rest : List HostStep} {s : State} (hs : s.seq = []) (hh : s.hostSeq = .check h :: rest) :
    step s = .next (if lastCode s = 0 then s.setHostSeq rest else failHost h (lastCode s) (s.setHostSeq rest)) :=
  step_hostSeq hs hh

theorem step_check_zero {h : OnFail} {rest : List HostStep} {s : State} (hs : s.seq = [])
    (hh : s.hostSeq = .check h :: rest) (hcode : lastCode s = 0) : step s = .next (s.setHostSeq rest) := by
  rw [step_check hs hh, if_pos hcode]

theorem step_check_nonzero {h : OnFail} {rest : List HostStep} {s : State} (hs : s.seq = [])
    (hh : s.hostSeq = .check h :: rest) (hcode : lastCode s ≠ 0) :
    step s = .next (failHost h (lastCode s) (s.setHostSeq rest)) := by
  rw [step_check hs hh, if_neg hcode]

theorem step_setDrv {d : DrvState} {rest : List HostStep} {s : State} (hs : s.seq = [])
    (hh : s.hostSeq = .setDrv d :: rest) : step s = .next ((s.setHostSeq rest).setDrv d) :=
  step_hostSeq hs hh

theorem step_ret {r : HostResult} {rest : List HostStep} {s : State} (hs : s.seq = [])
    (hh : s.hostSeq = .ret r :: rest) : step s = .next (logHost (.returned r) (s.setHostSeq rest)) :=
  step_hostSeq hs hh

/-- An operation that only returns runs in two steps: it is taken, and it returns. -/
theorem run_two_of_ret {op : HostOp} {r : HostResult} {rest : List Stimulus} {s : State} (hidle : Idle s)
    (hi : s.inbox = .host op :: rest) (hop : opSteps Config.hostParams s.drv op = [.ret r]) :
    Host.Core.run Sys2Proof.core 2 s = .next { s with inbox := rest, hostLog := s.hostLog ++ [.returned r] } := by
  obtain ⟨hs, hh⟩ := hidle
  have htaken := step_hostOp hs hh hi
  rw [hop] at htaken
  have hret := step_ret (r := r) (rest := s.hostSeq) (s := (s.setInbox rest).setHostSeq [.ret r]) hs (by simp [hh])
  exact (run_succ htaken 1).trans (run_succ hret 0)

/-! ### What a part of a sequence leaves -/

theorem NormalOperation.seq_nil {s : State} (h : NormalOperation s) : s.seq = [] := h.2.1

/-- With no failure these events went out and these entries came into the host's log; chip-select stands where the events
left it, the reset line is not left active, the driver's state, the bus configuration, what the host has yet to present and
the buffer it holds are as before, and the block can take the next command. -/
structure HostRan (es : List Event) (log : List HostEvent) (s t : State) : Prop where
  trace : t.trace = s.trace ++ es
  hostLog : t.hostLog = s.hostLog ++ log
  csN : t.csN = levelFrom s.csN es
  rstN : s.rstN = .high → t.rstN = .high
  speed : SpeedSame s t
  drv : t.drv = s.drv
  inbox : t.inbox = s.inbox
  result : lastResult t = lastResult s
  normal : NormalOperation t

theorem HostRan.refl {s : State} (h : NormalOperation s) : HostRan [] [] s s :=
  ⟨(List.append_nil _).symm, (List.append_nil _).symm, rfl, id, ⟨rfl, rfl, rfl⟩, rfl, rfl, rfl, h⟩

theorem HostRan.trans {es es' : List Event} {log log' : List HostEvent} {s t u : State} (h : HostRan es log s t)
    (h' : HostRan es' log' t u) : HostRan (es ++ es') (log ++ log') s u where
  trace := by rw [h'.trace, h.trace, List.append_assoc]
  hostLog := by rw [h'.hostLog, h.hostLog, List.append_assoc]
  csN := by rw [h'.csN, h.csN, levelFrom_append]
  rstN hr := h'.rstN (h.rstN hr)
  speed := h.speed.trans h'.speed
  drv := h'.drv.trans h.drv
  inbox := h'.inbox.trans h.inbox
  result := h'.result.trans h.result
  normal := h'.normal

/-- What remains of the sequence is none of it. -/
theorem HostRan.of_setHostSeq {es : List Event} {log : List HostEvent} {l l' : List HostStep} {s t : State}
    (h : HostRan es log (s.setHostSeq l) t) : HostRan es log s (t.setHostSeq l') :=
  ⟨h.trace, h.hostLog, h.csN, h.rstN, h.speed, h.drv, h.inbox, h.result, h.normal⟩

/-- A log entry, and no event. -/
theorem hostRan_logHost (e : HostEvent) (l : List HostStep) {s : State} (h : NormalOperation s) :
    HostRan [] [e] s (logHost e (s.setHostSeq l)) :=
  ⟨(List.append_nil _).symm, rfl, rfl, id, ⟨rfl, rfl, rfl⟩, rfl, rfl, rfl, h⟩

/-! ### One command of a sequence -/

/-- A command took the block from `s` to `u` with these events and code 0. -/
structure Completes (es : List Event) (s u : State) : Prop where
  ran : HostRan es [] s u
  code : lastCode u = 0
  hostSeq : u.hostSeq = s.hostSeq

theorem completes_of_effects {es : List Event} {s u : State} (htrace : u.trace = s.trace ++ es)
    (hcs : u.csN = levelFrom s.csN es) (hrst : s.rstN = .high → u.rstN = .high) (hspeed : SpeedSame s u)
    (hhost : HostSame s u) (hcompletions : u.completions = s.completions ++ [⟨0, none⟩])
    (hnormal : NormalOperation u) : Completes es s u := by
  obtain ⟨hinbox, hseq, hdrv, hlog⟩ := hhost
  have hlog' : u.hostLog = s.hostLog ++ [] := hlog.trans (List.append_nil _).symm
  exact ⟨⟨htrace, hlog', hcs, hrst, hspeed, hdrv, hinbox, lastResult_of_append_none hcompletions, hnormal⟩,
    lastCode_of_append hcompletions, hseq⟩

theorem EndsWell.completes {es : List Event} {s u : State} (h : EndsWell s u) (htrace : u.trace = s.trace ++ es)
    (hcs : levelFrom s.csN es = .high) (hrst : u.rstN = s.rstN) (hspeed : SpeedSame s u) (hhost : HostSame s u) :
    Completes es s u := by
  obtain ⟨hhigh, hseq, hfault, hcompletions, henv⟩ := h
  exact completes_of_effects htrace (hhigh.trans hcs.symm) hrst.trans hspeed hhost hcompletions ⟨hfault, hseq, henv⟩

@[simp] theorem levelFrom_bracketEvents (l : Level) (f : List Byte) : levelFrom l (bracketEvents f) = .high := by
  simp [bracketEvents, levelFrom, levelFrom_append]

@[simp] theorem levelFrom_wrregEvents (l : Level) (addr value : U16) : levelFrom l (wrregEvents addr value) = .high := by
  simp [wrregEvents, levelFrom_append]

@[simp] theorem levelFrom_strmEvents (l : Level) (buf : List Pixel) : levelFrom l (strmEvents buf) = .high := by
  simp [strmEvents, levelFrom_append]

theorem wrreg_completes (addr value : U16) {s : State} (hn : NormalOperation s) :
    ∃ u, exec (.wrreg addr value) s = .next u ∧ Completes (wrregEvents addr value) s u := by
  obtain ⟨u, hexec, htrace, hend, hrst, hspeed, hhost, -⟩ := wrregWritesRegister addr value s hn
  exact ⟨u, hexec, hend.completes htrace (levelFrom_wrregEvents _ _ _) hrst hspeed hhost⟩

theorem strm_completes {w h : U16} {buf : List Pixel} (hlen : buf.length = w.toNat * h.toNat) {s : State}
    (hn : NormalOperation s) : ∃ u, exec (.strm w h buf) s = .next u ∧ Completes (strmEvents buf) s u := by
  obtain ⟨u, hexec, htrace, hend, hrst, hspeed, hhost, -⟩ := strmStreamsWholeBuffer w h buf s hn hlen
  exact ⟨u, hexec, hend.completes (htrace.trans (append_strmEvents _ buf).symm) (levelFrom_strmEvents _ _) hrst hspeed
    hhost⟩

theorem rstp_completes {s : State} (hn : NormalOperation s) :
    ∃ u, exec .rstp s = .next u ∧ Completes rstpEvents s u := by
  obtain ⟨u, hexec, htrace, hrst, hcs, hseq, hfault, hcompletions, henv, hspeed, hhost⟩ := rstpPulsesResetLine s hn
  exact ⟨u, hexec, completes_of_effects htrace hcs (fun _ => hrst) hspeed hhost hcompletions ⟨hfault, hseq, henv⟩⟩

/-! ### Sequences put together -/

/-- In normal operation, with the buffer `buf` from `PACK` in the host's hands, these steps of a sequence run through,
leaving these events and log entries. -/
def Leaves (buf : List Pixel) (steps : List HostStep) (es : List Event) (log : List HostEvent) : Prop :=
  ∀ (rest : List HostStep) (s : State), NormalOperation s → lastResult s = buf → s.hostSeq = steps ++ rest →
    ∃ t, Reaches s t ∧ HostRan es log s t ∧ t.hostSeq = rest

section
variable {buf : List Pixel}

theorem leaves_nil : Leaves buf [] [] [] := fun _ s hn _ hh => ⟨s, .refl s, .refl hn, hh⟩

theorem Leaves.append {steps steps' : List HostStep} {es es' : List Event} {log log' : List HostEvent}
    (h : Leaves buf steps es log) (h' : Leaves buf steps' es' log') :
    Leaves buf (steps ++ steps') (es ++ es') (log ++ log') := by
  intro rest s hn hbuf hh
  obtain ⟨t, hst, hran, hseq⟩ := h (steps' ++ rest) s hn hbuf (hh.trans (List.append_assoc _ _ _))
  obtain ⟨u, htu, hran', hseq'⟩ := h' rest t hran.normal (hran.result.trans hbuf) hseq
  exact ⟨u, hst.trans htu, hran.trans hran', hseq'⟩

/-- A command that completes with code 0 passes the check after it. -/
theorem leaves_checked {x : HostStep} {h : OnFail} {es : List Event}
    (hx : ∀ s, NormalOperation s → lastResult s = buf → ∃ u, runHostStep x s = .next u ∧ Completes es s u) :
    Leaves buf [x, .check h] es [] := by
  intro rest s hn hbuf hh
  obtain ⟨u, hstep, hu⟩ := hx (s.setHostSeq (.check h :: rest)) hn hbuf
  have hcheck : step u = .next (u.setHostSeq rest) := step_check_zero hu.ran.normal.seq_nil hu.hostSeq hu.code
  exact ⟨_, .head ((step_hostSeq hn.seq_nil hh).trans hstep) (.head hcheck (.refl _)), hu.ran.of_setHostSeq, rfl⟩

theorem leaves_wrreg (h : OnFail) (addr value : U16) :
    Leaves buf (giveChecked h (.wrreg addr value)) (wrregEvents addr value) [] :=
  leaves_checked fun _ hn _ => wrreg_completes addr value hn

theorem leaves_rstp (h : OnFail) : Leaves buf (giveChecked h .rstp) rstpEvents [] :=
  leaves_checked fun _ hn _ => rstp_completes hn

theorem leaves_stream (c : OnFail) {w h : U16} (hlen : buf.length = w.toNat * h.toNat) :
    Leaves buf [.stream w h, .check c] (strmEvents buf) [] := by
  refine leaves_checked fun s hn hbuf => ?_
  subst hbuf
  exact strm_completes hlen hn

theorem leaves_delay (ms : Nat) : Leaves buf [.delay ms] [] [.delayed ms] := fun _ _ hn _ hh =>
  ⟨_, .head (step_hostSeq hn.seq_nil hh) (.refl _), hostRan_logHost _ _ hn, rfl⟩

theorem leaves_ret (r : HostResult) : Leaves buf [.ret r] [] [.returned r] := fun _ _ hn _ hh =>
  ⟨_, .head (step_ret hn.seq_nil hh) (.refl _), hostRan_logHost _ _ hn, rfl⟩

theorem Leaves.append_ret {steps : List HostStep} {es : List Event} {log : List HostEvent} (h : Leaves buf steps es log)
    (r : HostResult) : Leaves buf (steps ++ [.ret r]) es (log ++ [.returned r]) := by
  simpa only [List.append_nil] using h.append (leaves_ret r)

/-- The events of `SETWIN` (R115). -/
def setWinEvents (p : HostParams) (x0 y0 x1 y1 : U16) : List Event :=
  wrregEvents p.regHStart x0 ++ wrregEvents p.regVStart y0 ++ wrregEvents p.regHEnd x1 ++ wrregEvents p.regVEnd y1

theorem leaves_setWin (p : HostParams) (x0 y0 x1 y1 : U16) :
    Leaves buf (setWinSteps p x0 y0 x1 y1) (setWinEvents p x0 y0 x1 y1) [] :=
  (((leaves_wrreg _ _ _).append (leaves_wrreg _ _ _)).append (leaves_wrreg _ _ _)).append (leaves_wrreg _ _ _)

/-- What a draw has left to do when its buffer is packed (R116). -/
def afterPackSteps (p : HostParams) (win : AddressWindow) (w h : U16) : List HostStep :=
  setWinSteps p (.ofInt 16 win.x0) (.ofInt 16 win.y0) (.ofInt 16 win.x1) (.ofInt 16 win.y1) ++
    [.stream w h, .check .operation] ++ [.ret .done]

theorem leaves_afterPack (p : HostParams) (win : AddressWindow) {w h : U16} (hlen : buf.length = w.toNat * h.toNat) :
    Leaves buf (afterPackSteps p win w h)
      (setWinEvents p (.ofInt 16 win.x0) (.ofInt 16 win.y0) (.ofInt 16 win.x1) (.ofInt 16 win.y1) ++ strmEvents buf)
      [.returned .done] :=
  ((leaves_setWin _ _ _ _ _).append (leaves_stream .operation hlen)).append_ret .done

theorem leaves_initItem (item : InitItem) :
    Leaves buf (initItemSteps item) (initItemEvents item) (initItemLog item) := by
  cases item with
  | write addr value => exact leaves_wrreg .construction addr value
  | delay ms => exact leaves_delay ms

theorem leaves_initItems (items : List InitItem) :
    Leaves buf (items.flatMap initItemSteps) (items.flatMap initItemEvents) (items.flatMap initItemLog) := by
  induction items with
  | nil => exact leaves_nil
  | cons item items ih => exact (leaves_initItem item).append ih

end

@[simp] theorem levelFrom_setWinEvents (l : Level) (p : HostParams) (x0 y0 x1 y1 : U16) :
    levelFrom l (setWinEvents p x0 y0 x1 y1) = .high := by
  simp [setWinEvents, levelFrom_append]

/-- The writes of `INIT_SEQ` leave chip-select inactive, and its delays leave it as it was. -/
theorem levelFrom_initItemEvents (items : List InitItem) : levelFrom .high (items.flatMap initItemEvents) = .high := by
  induction items with
  | nil => rfl
  | cons item items ih => cases item <;> simpa [initItemEvents, levelFrom_append] using ih

/-! ### `PACK` at the beginning of a draw (R92, R116) -/

theorem reaches_packed {w h : U16} {px : List Rgb} {c : OnFail} {rest : List HostStep} {s : State} (hf : s.fault = 0)
    (hs : s.seq = []) (hlen : px.length = w.toNat * h.toNat) (hh : s.hostSeq = giveChecked c (.pack w h px) ++ rest) :
    Reaches s ((complete 0 (some (px.map packPixel)) s).setHostSeq rest) := by
  have hpack := (step_hostSeq hs hh).trans (exec_pack hlen (s := s.setHostSeq (.check c :: rest)) hf hs)
  have hcheck := step_check_zero (s := complete 0 (some (px.map packPixel)) (s.setHostSeq (.check c :: rest))) hs rfl
    (lastCode_complete _ _ _)
  exact .head hpack (.head hcheck (.refl _))

/-! ### Block reset at the beginning of a construction (R112, R151) -/

theorem askResource_ok (r : Resource) {e : Env} (h : e.allOk = true) :
    ∃ e', askResource r e = (.ok, e') ∧ e'.allOk = true := by
  cases r with
  | csLine | rstLine => exact askGpio_ok h
  | bus => exact askOpen_ok h

theorem acquireAll_ok (rs : List Resource) {s : State} (h : s.env.allOk = true) :
    ∃ e, e.allOk = true ∧ acquireAll rs s = complete codeNone none ((s.setEnv e).setSpeedActive s.speedHz) := by
  induction rs generalizing s with
  | nil => exact ⟨s.env, h, rfl⟩
  | cons r rs ih =>
    obtain ⟨e, hask, he⟩ := askResource_ok r h
    obtain ⟨e', he', hrest⟩ := ih (s := s.setEnv e) he
    exact ⟨e', he', by simp only [acquireAll, hask]; exact hrest⟩

/-- Where every answer is `ok` block reset is one step, and it ends with code 0. -/
theorem step_blockReset_ok {hz : U32} {rest : List HostStep} {s : State} (hs : s.seq = [])
    (hh : s.hostSeq = .blockReset hz :: rest) (h : s.env.allOk = true) :
    ∃ u, step s = .next u ∧ BlockReset hz u ∧ HostSame (s.setHostSeq rest) u ∧ u.env.allOk = true ∧ lastCode u = 0 := by
  obtain ⟨e, he, hreset⟩ := acquireAll_ok [.csLine, .rstLine, .bus] (s := resetElements hz (s.setHostSeq rest)) h
  exact ⟨_, (step_hostSeq hs hh).trans (congrArg Host.Outcome.next hreset), ⟨rfl, rfl, rfl, rfl, rfl, rfl, rfl, rfl⟩,
    ⟨rfl, rfl, rfl, rfl⟩, he, lastCode_complete _ _ _⟩

theorem newSteps_eq (p : HostParams) (hz : U32) :
    newSteps p hz = .blockReset hz :: .setDrv .uninitialized :: .check .construction :: .setDrv .initializing ::
      (giveChecked .construction .rstp ++ (initSeq p).flatMap initItemSteps ++ [.setDrv .ready, .ret .driver]) := by
  simp [newSteps, initSteps]

/-- The host's own steps between block reset and the first command. -/
theorem reaches_initializing {c : OnFail} {commands : List HostStep} {s : State} (hs : s.seq = []) (hcode : lastCode s = 0)
    (hh : s.hostSeq = .setDrv .uninitialized :: .check c :: .setDrv .initializing :: commands) :
    Reaches s ((s.setDrv .initializing).setHostSeq commands) := by
  have hcheck : step ((s.setHostSeq (.check c :: .setDrv .initializing :: commands)).setDrv .uninitialized) =
      .next ((s.setDrv .uninitialized).setHostSeq (.setDrv .initializing :: commands)) := step_check_zero hs rfl hcode
  exact .head (step_setDrv hs hh) (.head hcheck (.head (step_setDrv hs rfl) (.refl _)))

/-- A construction comes to its first command with the block reset, from any idle state. -/
theorem reaches_init {hz : U32} {rest : List Stimulus} {s : State} (hidle : Idle s) (henv : s.env.allOk = true)
    (hi : s.inbox = .host (.new hz) :: rest) :
    ∃ u, Reaches s u ∧ BlockReset hz u ∧ u.env.allOk = true ∧ u.inbox = rest ∧ u.hostLog = s.hostLog ∧
      u.hostSeq = giveChecked .construction .rstp ++ (initSeq Config.hostParams).flatMap initItemSteps ++
        [.setDrv .ready, .ret .driver] := by
  obtain ⟨hs, hh⟩ := hidle
  have htaken := step_hostOp hs hh hi
  rw [opSteps, newSteps_eq] at htaken
  generalize giveChecked .construction .rstp ++ (initSeq Config.hostParams).flatMap initItemSteps ++
    [.setDrv .ready, .ret .driver] = commands at htaken ⊢
  obtain ⟨u, hreset, hblock, ⟨hinbox, hseq, -, hlog⟩, hok, hcode⟩ := step_blockReset_ok (hz := hz)
    (s := (s.setInbox rest).setHostSeq
      (.blockReset hz :: .setDrv .uninitialized :: .check .construction :: .setDrv .initializing :: commands)) hs rfl henv
  obtain ⟨-, -, -, -, -, hempty, -⟩ := id hblock
  exact ⟨_, .head htaken (.head hreset (reaches_initializing hempty hcode hseq)), hblock, hok, hinbox, hlog, rfl⟩

end Sys2Proof.Machine
end

section
/-! SUPPORT. `clamp` and the addressing window of a draw (44_host_sequences.md R114, R119). -/

namespace Sys2Proof.Machine

theorem clamp_below {v lo hi : Int} (h : lo ≤ hi) (hv : v < lo) : clamp v lo hi = lo := by
  rw [clamp, max_eq_right hv.le, min_eq_left h]

theorem clamp_above {v lo hi : Int} (h : lo ≤ hi) (hv : hi < v) : clamp v lo hi = hi := by
  rw [clamp, max_eq_left (h.trans hv.le), min_eq_right hv.le]

theorem clamp_inside {v lo hi : Int} (hlo : lo ≤ v) (hhi : v ≤ hi) : clamp v lo hi = v := by
  rw [clamp, max_eq_left hlo, min_eq_left hhi]

theorem clamp_mem {lo hi : Int} (h : lo ≤ hi) (v : Int) : lo ≤ clamp v lo hi ∧ clamp v lo hi ≤ hi :=
  ⟨le_min (le_max_right _ _) h, min_le_right _ _⟩

theorem clamp_mono {v v' : Int} (h : v ≤ v') (lo hi : Int) : clamp v lo hi ≤ clamp v' lo hi :=
  min_le_min_right _ (max_le_max_right _ h)

/-- The window of a draw whose start and end lie on the panel. -/
theorem drawWindow_onPanel {x y w h : Int} (hx0 : 0 ≤ x) (hx0' : x ≤ 239) (hx1 : 0 ≤ x + w - 1) (hx1' : x + w - 1 ≤ 239)
    (hy0 : 0 ≤ y) (hy0' : y ≤ 319) (hy1 : 0 ≤ y + h - 1) (hy1' : y + h - 1 ≤ 319) :
    drawWindow x y w h = { x0 := x, y0 := y, x1 := x + w - 1, y1 := y + h - 1 } := by
  rw [drawWindow, AddressWindow.mk.injEq]
  exact ⟨clamp_inside hx0 hx0', clamp_inside hy0 hy0', clamp_inside hx1 hx1', clamp_inside hy1 hy1'⟩

end Sys2Proof.Machine
end

section
/-! SUPPORT. The order of the steps in every sequence of the driver: what follows each of them (44_host_sequences.md R111 to
R113, R115, R116). -/

namespace Sys2Proof.Machine

/-- What follows a step of an operation whose failures end `f`: after a command, or a block reset, the check of its code;
after the step to `Ready` the return of the driver; after a return nothing. -/
def FollowedRightly (f : OnFail) : HostStep → List HostStep → Prop
  | .give _, after | .stream _ _, after => ∃ rest, after = .check f :: rest
  | .blockReset _, after => ∃ rest, after = .setDrv .uninitialized :: .check f :: rest
  | .setDrv d, after => d = .ready → after = [.ret .driver]
  | .ret _, after => after = []
  | .acquire _, _ | .check _, _ | .delay _, _ => True

/-- Every step of the sequence is followed by what has to follow it. -/
def OrderedRightly (f : OnFail) : List HostStep → Prop
  | [] => True
  | x :: after => FollowedRightly f x after ∧ OrderedRightly f after

theorem OrderedRightly.followed {f : OnFail} {before after : List HostStep} {x : HostStep}
    (h : OrderedRightly f (before ++ x :: after)) : FollowedRightly f x after := by
  induction before with
  | nil => exact h.1
  | cons y before ih => exact ih h.2

@[simp] theorem orderedRightly_giveChecked (f : OnFail) (i : Instr) (l : List HostStep) :
    OrderedRightly f (giveChecked f i ++ l) ↔ OrderedRightly f l := by
  simp [giveChecked, OrderedRightly, FollowedRightly]

@[simp] theorem orderedRightly_setWinSteps (p : HostParams) (x0 y0 x1 y1 : U16) (l : List HostStep) :
    OrderedRightly .operation (setWinSteps p x0 y0 x1 y1 ++ l) ↔ OrderedRightly .operation l := by
  simp [setWinSteps]

@[simp] theorem orderedRightly_initItems (items : List InitItem) (l : List HostStep) :
    OrderedRightly .construction (items.flatMap initItemSteps ++ l) ↔ OrderedRightly .construction l := by
  induction items with
  | nil => rfl
  | cons item items ih =>
    cases item with
    | write addr value => simp [initItemSteps, ih]
    | delay ms => simp [initItemSteps, OrderedRightly, FollowedRightly, ih]

theorem orderedRightly_drawSteps (p : HostParams) (drv : DrvState) (x y : Int) (buf : PixelBuffer) :
    OrderedRightly .operation (drawSteps p drv x y buf) := by
  unfold drawSteps
  split
  · simp [drawRegionSteps, OrderedRightly, FollowedRightly]
  · simp [OrderedRightly, FollowedRightly]

theorem orderedRightly_opSteps (p : HostParams) (drv : DrvState) (op : HostOp) :
    OrderedRightly op.onFail (opSteps p drv op) := by
  cases op with
  | new hz => simp [HostOp.onFail, opSteps, newSteps_eq, OrderedRightly, FollowedRightly]
  | setWin x0 y0 x1 y1 => simp [HostOp.onFail, opSteps, OrderedRightly, FollowedRightly]
  | drawRegion x y buf => exact orderedRightly_drawSteps p drv x y buf
  | drawFull buf => exact orderedRightly_drawSteps p drv 0 0 buf
  | getSize => simp [opSteps, OrderedRightly, FollowedRightly]

end Sys2Proof.Machine
end

section
/-! SUPPORT. The obligations about the host (44_host_sequences.md), each from the lemmas above. -/

namespace Sys2Proof.Machine

/-- Settles O52: the four writes of the sequence, and the return. -/
theorem setWinWritesStartBeforeEnd : Obligations.SetWinWritesStartBeforeEnd := by
  unfold Obligations.SetWinWritesStartBeforeEnd
  intro x0 y0 x1 y1 rest s hn hh hi
  obtain ⟨t, hreach, hran, hdone⟩ := (leaves_setWin Config.hostParams x0 y0 x1 y1).append_ret .done []
    ((s.setInbox rest).setHostSeq (opSteps Config.hostParams s.drv (.setWin x0 y0 x1 y1))) hn rfl (List.append_nil _).symm
  obtain ⟨n, hn'⟩ := Reaches.head (step_hostOp hn.seq_nil hh hi) hreach
  obtain ⟨hfault, hseq, -⟩ := hran.normal
  refine ⟨n, t, hn', ?_, hran.hostLog, hfault, hseq, hdone, hran.inbox, ?_, hran.drv, hran.speed⟩
  · simp [hran.trace, setWinEvents]
  · simp [hran.csN]

/-- Settles O53: after the packing, which leaves no event, the sequence of `SETWIN` and the stream of the packed buffer. -/
theorem drawRegionSetsWindowThenStreams : Obligations.DrawRegionSetsWindowThenStreams := by
  unfold Obligations.DrawRegionSetsWindowThenStreams
  intro x y buf rest s hn hh hdrv hi hlen win
  obtain ⟨hfault, hseq, hok⟩ := hn
  have htaken := step_hostOp hseq hh hi
  rw [hdrv] at htaken
  let packed := buf.px.map packPixel
  let after := afterPackSteps Config.hostParams win buf.w buf.h
  let taken := (s.setInbox rest).setHostSeq (giveChecked .operation (.pack buf.w buf.h buf.px) ++ after)
  have hlen' : packed.length = buf.w.toNat * buf.h.toNat := (List.length_map _).trans hlen
  have hpacked : Reaches taken ((complete 0 (some packed) taken).setHostSeq after) :=
    reaches_packed (c := .operation) hfault hseq hlen rfl
  obtain ⟨t, hreach, hran, hdone⟩ := leaves_afterPack Config.hostParams win hlen' []
    ((complete 0 (some packed) taken).setHostSeq after) ⟨hfault, hseq, hok⟩ (lastResult_complete_some 0 packed taken)
    (List.append_nil _).symm
  obtain ⟨n, hn⟩ := Reaches.head htaken (hpacked.trans hreach)
  obtain ⟨hfault', hseq', -⟩ := hran.normal
  refine ⟨n, t, hn, ?_, hran.hostLog, hfault', hseq', hdone, hran.inbox, ?_, hran.drv.trans hdrv, hran.speed⟩
  · simp [hran.trace, setWinEvents, packed, taken]
  · simp [hran.csN, levelFrom_append]

/-- Settles O57: block reset, the pulse of the reset line, the items of `INIT_SEQ`, and the last two steps of the host. -/
theorem constructionReachesReady : Obligations.ConstructionReachesReady := by
  unfold Obligations.ConstructionReachesReady
  intro hz rest s hidle henv hi
  obtain ⟨u, hsu, ⟨hcs, hrst, hspeed, hactive, -, hseq, hfault, htrace⟩, hok, hinbox, hlog, htodo⟩ :=
    reaches_init hidle henv hi
  obtain ⟨t, hut, hran, hlast⟩ :=
    ((leaves_rstp .construction).append (leaves_initItems (initSeq Config.hostParams))) _ u ⟨hfault, hseq, hok⟩ rfl htodo
  obtain ⟨hfault', hseq', -⟩ := hran.normal
  have hend : Reaches t (logHost (.returned .driver) (((t.setHostSeq [.ret .driver]).setDrv .ready).setHostSeq [])) :=
    .head (step_setDrv hseq' hlast) (.head (step_ret hseq' rfl) (.refl _))
  obtain ⟨n, hn⟩ := hsu.trans (hut.trans hend)
  refine ⟨n, _, hn, rfl, ?_, ?_, hfault', hseq', rfl, hran.inbox.trans hinbox, ?_, hran.rstN hrst,
    hran.speed.1.trans hspeed, hran.speed.2.1.trans hactive⟩
  · simp [hran.trace, htrace]
  · simp [hran.hostLog, hlog]
  · have hpulse : levelFrom .high rstpEvents = .high := rfl
    simp [hran.csN, hcs, levelFrom_append, hpulse, levelFrom_initItemEvents]

/-- Settles O59: the order of the steps in every sequence, and what the check does at each code. -/
theorem initStopsAtFirstFailure : Obligations.InitStopsAtFirstFailure := by
  unfold Obligations.InitStopsAtFirstFailure
  refine ⟨fun p drv op before after x h => ?_, fun f rest c s hs hh hc => ?_⟩
  · have hx : FollowedRightly op.onFail x after := (h ▸ orderedRightly_opSteps p drv op).followed
    refine ⟨fun hcommand => ?_, ?_, ?_, ?_⟩
    · cases x with
      | give i => exact hx
      | stream w b => exact hx
      | _ => nomatch hcommand
    · rintro hz rfl
      exact hx
    · rintro rfl
      exact hx rfl
    · rintro r rfl
      exact hx
  · rw [← lastCode_of_getLast? hc]
    refine ⟨step_check_zero hs hh, ?_, ?_⟩
    · rintro hcode rfl
      exact step_check_nonzero hs hh hcode
    · rintro hcode rfl
      exact step_check_nonzero hs hh hcode

/-- Settles O50: the three cases of `clamp`. -/
theorem clampReturnsNearestBound : Obligations.ClampReturnsNearestBound := by
  unfold Obligations.ClampReturnsNearestBound
  exact fun v lo hi h => ⟨clamp_below h, clamp_above h, clamp_inside⟩

/-- Settles O51: each coordinate is a `clamp`, which keeps the order of its arguments. -/
theorem windowLiesOnPanel : Obligations.WindowLiesOnPanel := by
  unfold Obligations.WindowLiesOnPanel
  intro x y w h win nearest
  have hx : (0 : Int) ≤ 239 := by decide
  have hy : (0 : Int) ≤ 319 := by decide
  have near (v last : Int) (hlast : 0 ≤ last) : nearest v (clamp v 0 last) last :=
    clampReturnsNearestBound v 0 last hlast
  obtain ⟨hx0, hx0'⟩ := clamp_mem hx x
  obtain ⟨hx1, hx1'⟩ := clamp_mem hx (x + w - 1)
  obtain ⟨hy0, hy0'⟩ := clamp_mem hy y
  obtain ⟨hy1, hy1'⟩ := clamp_mem hy (y + h - 1)
  refine ⟨near x 239 hx, near (x + w - 1) 239 hx, near y 319 hy, near (y + h - 1) 319 hy, ⟨hx0, hx0', hx1, hx1'⟩,
    ⟨hy0, hy0', hy1, hy1'⟩, fun hw => clamp_mono (by omega) 0 239, fun hh => clamp_mono (by omega) 0 319, ?_⟩
  intro hxl hw hxr hyl hh hyr
  exact drawWindow_onPanel hxl (by omega) (by omega) (by omega) hyl (by omega) (by omega) (by omega)

/-- Settles O54: both operations start the same sequence. -/
theorem drawFullIsDrawRegionAtOrigin : Obligations.DrawFullIsDrawRegionAtOrigin := by
  unfold Obligations.DrawFullIsDrawRegionAtOrigin
  refine ⟨fun buf rest s ⟨hs, hh⟩ => ?_, by decide, fun packed hlen => ?_⟩
  · exact (step_hostOp (s := s.setInbox (.host (.drawFull buf) :: rest)) hs hh rfl).trans
      (step_hostOp (s := s.setInbox (.host (.drawRegion 0 0 buf) :: rest)) hs hh rfl).symm
  · rw [streamFrameBytes, List.length_cons, pixelBytes_length, hlen]

/-- Settles O55: on a driver that is not `Ready` the sequence of a draw is one return. -/
theorem drawNeedsReadyDriver : Obligations.DrawNeedsReadyDriver := by
  unfold Obligations.DrawNeedsReadyDriver
  intro op buf x y rest s hidle hdrv hop hi
  have hrefused (x y : Int) : drawSteps Config.hostParams s.drv x y buf = [.ret .notInitialized] := if_neg hdrv
  rcases hop with rfl | rfl
  · exact run_two_of_ret hidle hi (hrefused x y)
  · exact run_two_of_ret hidle hi (hrefused 0 0)

/-- Settles O56: the sequence of `GETSIZE` is one return. -/
theorem getSizeReturnsPanel : Obligations.GetSizeReturnsPanel := by
  unfold Obligations.GetSizeReturnsPanel
  exact ⟨⟨rfl, rfl, rfl⟩, fun rest s hidle hi => run_two_of_ret hidle hi rfl⟩

/-- Settles O60: the power group begins and ends with a write, and `HostParams` carries the rest. -/
theorem initSequenceKeepsItsShape : Obligations.InitSequenceKeepsItsShape := by
  unfold Obligations.InitSequenceKeepsItsShape
  intro p
  have hwindow := p.windowIsPanel
  simp only [List.map_cons, List.map_nil, List.cons.injEq] at hwindow
  obtain ⟨hx0, hy0, hx1, hy1, -⟩ := hwindow
  refine ⟨⟨p.power.first :: p.power.before, p.power.between, p.power.after ++ [p.power.last], p.power.delay1.ms,
    p.power.delay2.ms, List.cons_ne_nil _ _, by simp, p.power.delay1.atLeast50, p.power.delay2.atLeast50, ?_⟩,
    hx0, hy0, hx1, hy1, p.distinct⟩
  simp [initSeq, powerItems, writeItems]

end Sys2Proof.Machine
end

section
/-! SUPPORT. What a failure leaves, wherever in a command it strikes (60_exceptions.md R132, R134): what the micro-operations
done before it left, and what was recorded. No premise is made on the answers that are not asked for. -/

namespace Sys2Proof.Machine

/-! ### Micro-operations done -/

/-- These events went out with no failure; the bus configuration and the host are as before. Of the lines nothing is said. -/
structure Did (es : List Event) (s t : State) : Prop where
  trace : t.trace = s.trace ++ es
  fault : t.fault = s.fault
  completions : t.completions = s.completions
  speed : SpeedSame s t
  host : HostSame s t

theorem Did.trans {es es' : List Event} {s t u : State} (h : Did es s t) (h' : Did es' t u) : Did (es ++ es') s u where
  trace := by rw [h'.trace, h.trace, List.append_assoc]
  fault := h'.fault.trans h.fault
  completions := h'.completions.trans h.completions
  speed := h.speed.trans h'.speed
  host := h.host.trans h'.host

theorem did_emit_cs (l : Level) (e : Env) (s : State) : Did [.cs l] s (emit (.cs l) ((s.setCsN l).setEnv e)) := by
  constructor <;> simp [SpeedSame, HostSame]

theorem did_emit_rst (l : Level) (e : Env) (s : State) : Did [.rst l] s (emit (.rst l) ((s.setRstN l).setEnv e)) := by
  constructor <;> simp [SpeedSame, HostSame]

theorem did_emitBytes (f : List Byte) (e : Env) (s : State) : Did (f.map .tx) s (emitBytes f (s.setEnv e)) := by
  constructor <;> simp [SpeedSame, HostSame]

theorem did_setEnv (e : Env) (s : State) : Did [] s (s.setEnv e) := did_emitBytes [] e s

theorem did_emit_wait (ms : Nat) (s : State) : Did [.wait ms] s (emit (.wait ms) s) := by
  constructor <;> simp [SpeedSame, HostSame]

theorem performAll_done {u : MicroOp} {rest : List MicroOp} {s t : State} (hp : perform u s = .done t) (hr : rest ≠ []) :
    performAll (u :: rest) s = performAll rest t := by
  simp [performAll, hp, hr]

theorem performAll_failed {u : MicroOp} {rest : List MicroOp} {f : Failure} {s t : State}
    (hp : perform u s = .failed f t) : performAll (u :: rest) s = failCommand f t := by
  simp [performAll, hp]

/-! ### A command that fails -/

/-- The command ended with this failure after these events and left the lines at these levels: the code is in `FAULT` if it was
the first, nothing is left in `SEQ`, and the bus configuration and the host are as before. -/
structure FailsWith (code : BitVec 3) (es : List Event) (cs rst : Level) (s t : State) : Prop where
  csN : t.csN = cs
  rstN : t.rstN = rst
  trace : t.trace = s.trace ++ es ++ [.fail code]
  fault : t.fault = recordFault s.fault code
  seq : t.seq = []
  completions : t.completions = s.completions ++ [⟨code, none⟩]
  speed : SpeedSame s t
  host : HostSame s t

/-- R134: taking a failure adds its `FAIL` and its completion to what was done before. -/
theorem Did.failCommand {es : List Event} {s t : State} (h : Did es s t) (f : Failure) :
    FailsWith f.code es t.csN t.rstN s (failCommand f t) where
  csN := failCommand_csN f t
  rstN := failCommand_rstN f t
  trace := by rw [failCommand_trace, h.trace]
  fault := by rw [failCommand_fault, h.fault]
  seq := failCommand_seq f t
  completions := by rw [failCommand_completions, h.completions]
  speed := h.speed.trans (by simp [SpeedSame])
  host := h.host.trans (by simp [HostSame])

theorem Did.failsWith {code : BitVec 3} {es es' : List Event} {cs rst : Level} {s t u : State} (h : Did es s t)
    (h' : FailsWith code es' cs rst t u) : FailsWith code (es ++ es') cs rst s u where
  csN := h'.csN
  rstN := h'.rstN
  trace := by simp [h'.trace, h.trace]
  fault := by rw [h'.fault, h.fault]
  seq := h'.seq
  completions := by rw [h'.completions, h.completions]
  speed := h.speed.trans h'.speed
  host := h.host.trans h'.host

theorem FailsWith.fault_eq {code : BitVec 3} {es : List Event} {cs rst : Level} {s t : State}
    (h : FailsWith code es cs rst s t) (hf : s.fault = 0) : t.fault = code :=
  h.fault.trans (if_pos hf)

/-- The micro-operation at the head does not reach its end. -/
theorem failsWith_head_fails {u : MicroOp} {rest : List MicroOp} {f : Failure} {es : List Event} {s t : State}
    (hp : perform u s = .failed f t) (h : Did es s t) :
    FailsWith f.code es t.csN t.rstN s (performAll (u :: rest) s) := by
  rw [performAll_failed hp]
  exact h.failCommand f

/-- The micro-operation at the head is done, and the failure strikes later. -/
theorem failsWith_head_done {u : MicroOp} {rest : List MicroOp} {code : BitVec 3} {es es' : List Event} {cs rst : Level}
    {s t : State} (hp : perform u s = .done t) (hr : rest ≠ []) (h : Did es s t)
    (h' : FailsWith code es' cs rst t (performAll rest t)) :
    FailsWith code (es ++ es') cs rst s (performAll (u :: rest) s) := by
  rw [performAll_done hp hr]
  exact h.failsWith h'

theorem failsWith_driveCs (l : Level) (rest : List MicroOp) {s : State} (h : (askGpio s.env).1 = .fail) :
    FailsWith 3 [] s.csN s.rstN s (performAll (.driveCs l :: rest) s) :=
  failsWith_head_fails (perform_driveCs_fail l h) (did_setEnv _ s)

theorem failsWith_driveRst (l : Level) (rest : List MicroOp) {s : State} (h : (askGpio s.env).1 = .fail) :
    FailsWith 3 [] s.csN s.rstN s (performAll (.driveRst l :: rest) s) :=
  failsWith_head_fails (perform_driveRst_fail l h) (did_setEnv _ s)

theorem failsWith_txFrame_openFail (f : List Byte) (rest : List MicroOp) {s : State} (h : (askXfer s.env).1 = .openFail) :
    FailsWith 1 [] s.csN s.rstN s (performAll (.txFrame f :: rest) s) :=
  failsWith_head_fails (perform_txFrame_openFail f h) (did_setEnv _ s)

theorem failsWith_txFrame_xferFail (f : List Byte) (rest : List MicroOp) {k : Nat} {s : State}
    (h : (askXfer s.env).1 = .xferFail k) :
    FailsWith 2 ((f.take k).map .tx) s.csN s.rstN s (performAll (.txFrame f :: rest) s) := by
  have := failsWith_head_fails (rest := rest) (perform_txFrame_xferFail f h) (did_emitBytes (f.take k) _ s)
  simpa [Failure.code] using this

/-! ### Micro-operations answered `ok`, and the environment after that answer -/

theorem driveCs_done (l : Level) {s : State} (h : (askGpio s.env).1 = .ok) :
    ∃ t, perform (.driveCs l) s = .done t ∧ Did [.cs l] s t ∧ t.csN = l ∧ t.rstN = s.rstN ∧ t.env = (askGpio s.env).2 :=
  ⟨_, perform_driveCs_ok l h, did_emit_cs l _ s, by simp, by simp, by simp⟩

theorem txFrame_done (f : List Byte) {s : State} (h : (askXfer s.env).1 = .ok) :
    ∃ t, perform (.txFrame f) s = .done t ∧ Did (f.map .tx) s t ∧ t.csN = s.csN ∧ t.rstN = s.rstN ∧
      t.env = (askXfer s.env).2 :=
  ⟨_, perform_txFrame_ok f h, did_emitBytes f _ s, by simp, by simp, by simp⟩

theorem driveRst_done (l : Level) {s : State} (h : (askGpio s.env).1 = .ok) :
    ∃ t, perform (.driveRst l) s = .done t ∧ Did [.rst l] s t ∧ t.csN = s.csN ∧ t.rstN = l ∧ t.env = (askGpio s.env).2 :=
  ⟨_, perform_driveRst_ok l h, did_emit_rst l _ s, by simp, by simp, by simp⟩

/-! ### A bracket, on any answers (R132) -/

/-- Each failure a bracket can meet, whatever follows the bracket in the command. -/
theorem failsWith_bracket (f : List Byte) (rest : List MicroOp) (s : State) :
    let a1 := askGpio s.env
    let a2 := askXfer a1.2
    let a3 := askGpio a2.2
    let fails := fun (cs : Level) (es : List Event) (code : BitVec 3) =>
      FailsWith code es cs s.rstN s (performAll (bracket f ++ rest) s)
    (a1.1 = .fail → fails s.csN [] 3) ∧
      (a1.1 = .ok → (a2.1 = .openFail → fails .low [.cs .low] 1) ∧
        (∀ k, a2.1 = .xferFail k → fails .low (.cs .low :: (f.take k).map .tx) 2) ∧
        (a2.1 = .ok → a3.1 = .fail → fails .low (.cs .low :: f.map .tx) 3)) := by
  intro a1 a2 a3 fails
  refine ⟨fun h1 => failsWith_driveCs .low _ h1, fun h1 => ?_⟩
  obtain ⟨t, hp, hdid, hcs, hrst, henv⟩ := driveCs_done .low h1
  have hlater {es : List Event} {code : BitVec 3}
      (h : FailsWith code es t.csN t.rstN t (performAll (.txFrame f :: .driveCs .high :: rest) t)) :
      fails .low (.cs .low :: es) code := by
    rw [hcs, hrst] at h
    exact failsWith_head_done hp (List.cons_ne_nil _ _) hdid h
  have ha2 : a2 = askXfer t.env := by rw [henv]
  refine ⟨fun h2 => hlater (failsWith_txFrame_openFail f _ (ha2 ▸ h2)),
    fun k h2 => hlater (failsWith_txFrame_xferFail f _ (ha2 ▸ h2)), fun h2 h3 => ?_⟩
  obtain ⟨u, hp', hdid', hcs', hrst', henv'⟩ := txFrame_done f (ha2 ▸ h2)
  have ha3 : a3 = askGpio u.env := by rw [henv', ← ha2]
  have hfail := failsWith_head_done hp' (List.cons_ne_nil _ _) hdid' (failsWith_driveCs .high rest (ha3 ▸ h3))
  rw [hcs', hrst', List.append_nil] at hfail
  exact hlater hfail

/-- A bracket that meets no failure leaves chip-select inactive, and what follows it runs on the answers that are left. -/
theorem bracket_done (f : List Byte) {rest : List MicroOp} (hr : rest ≠ []) {s : State}
    (h1 : (askGpio s.env).1 = .ok) (h2 : (askXfer (askGpio s.env).2).1 = .ok)
    (h3 : (askGpio (askXfer (askGpio s.env).2).2).1 = .ok) :
    ∃ t, Did (bracketEvents f) s t ∧ t.csN = .high ∧ t.rstN = s.rstN ∧
      t.env = (askGpio (askXfer (askGpio s.env).2).2).2 ∧ performAll (bracket f ++ rest) s = performAll rest t := by
  obtain ⟨a, hpa, hdida, -, hrsta, henva⟩ := driveCs_done .low h1
  rw [← henva] at h2 h3 ⊢
  obtain ⟨b, hpb, hdidb, -, hrstb, henvb⟩ := txFrame_done f h2
  rw [← henvb] at h3 ⊢
  obtain ⟨t, hpt, hdidt, hcst, hrstt, henvt⟩ := driveCs_done .high h3
  refine ⟨t, hdida.trans (hdidb.trans hdidt), hcst, by rw [hrstt, hrstb, hrsta], henvt, ?_⟩
  calc performAll (bracket f ++ rest) s
      = performAll (.txFrame f :: .driveCs .high :: rest) a := performAll_done hpa (List.cons_ne_nil _ _)
    _ = performAll (.driveCs .high :: rest) b := performAll_done hpb (List.cons_ne_nil _ _)
    _ = performAll rest t := performAll_done hpt hr

/-! ### The reset line driven and held, on any answers (R132) -/

theorem driveRst_wait_done (l : Level) (ms : Nat) {rest : List MicroOp} (hr : rest ≠ []) {s : State}
    (h : (askGpio s.env).1 = .ok) :
    ∃ t, Did [.rst l, .wait ms] s t ∧ t.csN = s.csN ∧ t.rstN = l ∧ t.env = (askGpio s.env).2 ∧
      performAll (.driveRst l :: .wait ms :: rest) s = performAll rest t := by
  obtain ⟨a, hpa, hdida, hcsa, hrsta, henva⟩ := driveRst_done l h
  refine ⟨emit (.wait ms) a, hdida.trans (did_emit_wait ms a), by simp [hcsa], by simp [hrsta], by simp [henva], ?_⟩
  rw [performAll_done hpa (List.cons_ne_nil _ _), performAll_done (perform_wait ms a) hr]

/-! ### From acceptance -/

/-- A command the block accepts runs its expansion. -/
theorem runCommand_runs (u : MicroOp) (rest : List MicroOp) {s : State} (hf : s.fault = 0) (hs : s.seq = []) :
    runCommand true id none (u :: rest) s = performAll (u :: rest) s :=
  (runCommand_accepts hs hf).trans (performAll_setSeq ..)

end Sys2Proof.Machine
end

section
/-! SUPPORT. What no answer, a refusal and an illegal command leave (60_exceptions.md R131, R133, R135), the completions of any
command (R134), and a block reset that fails (R140). -/

namespace Sys2Proof.Machine

/-! ### No answer (R131) -/

theorem perform_driveCs_never (l : Level) {s : State} (h : (askGpio s.env).1 = .never) : perform (.driveCs l) s = .hung := by
  rcases ha : askGpio s.env with ⟨a, e⟩
  obtain rfl : a = .never := by simpa [ha] using h
  simp [perform, driveCs, ha]

theorem perform_driveRst_never (l : Level) {s : State} (h : (askGpio s.env).1 = .never) :
    perform (.driveRst l) s = .hung := by
  rcases ha : askGpio s.env with ⟨a, e⟩
  obtain rfl : a = .never := by simpa [ha] using h
  simp [perform, driveRst, ha]

theorem perform_txFrame_never (f : List Byte) {s : State} (h : (askXfer s.env).1 = .never) :
    perform (.txFrame f) s = .hung := by
  rcases ha : askXfer s.env with ⟨a, e⟩
  obtain rfl : a = .never := by simpa [ha] using h
  simp [perform, txFrame, ha]

theorem step_hung {s : State} {u : MicroOp} {rest : List MicroOp} (hs : s.seq = u :: rest) (hp : perform u s = .hung) :
    step s = .next s := by
  rw [step_microStep hs, microStep_hung hs hp]

/-- A step that leaves the state as it is does so for good. -/
theorem run_fixed {s : State} (h : step s = .next s) (n : Nat) : Host.Core.run Sys2Proof.core n s = .next s := by
  induction n with
  | zero => rfl
  | succ n ih => rw [run_succ h, ih]

/-! ### A block in which something has failed (R135) -/

/-- The elements of the block are as before; nothing is said of what the host was handed. -/
structure Untouched (s t : State) : Prop where
  fault : t.fault = s.fault
  trace : t.trace = s.trace
  csN : t.csN = s.csN
  rstN : t.rstN = s.rstN
  seq : t.seq = s.seq
  speed : SpeedSame s t

theorem HostOnly.untouched {s t : State} (h : HostOnly s t) : Untouched s t := by
  rw [h]
  exact ⟨rfl, rfl, rfl, rfl, rfl, rfl, rfl, rfl⟩

theorem Framed.untouched {s t : State} (h : Framed s t) : Untouched s t := by
  obtain ⟨hcs, hrst, hspeed, hseq, hfault, htrace, -⟩ := h.1.blockSame
  exact ⟨hfault, htrace, hcs, hrst, hseq, hspeed⟩

/-- A block that refuses hands over the code, and that is all. -/
theorem Commanded.untouched {s t : State} (h : Commanded s t) (hf : s.fault ≠ 0) (hs : s.seq = []) : Untouched s t := by
  obtain ⟨wf, imm, res, exp, -, rfl⟩ := h
  rw [runCommand_refuses hs hf]
  exact ⟨rfl, rfl, rfl, rfl, rfl, rfl, rfl, rfl⟩

theorem Untouched.trans {s t u : State} (h : Untouched s t) (h' : Untouched t u) : Untouched s u :=
  ⟨h'.fault.trans h.fault, h'.trace.trans h.trace, h'.csN.trans h.csN, h'.rstN.trans h.rstN, h'.seq.trans h.seq,
    h.speed.trans h'.speed⟩

/-- After a failure every step but one of block reset leaves the block as it is. -/
theorem step_untouched {s t : State} (hf : s.fault ≠ 0) (hs : s.seq = []) (hr : ¬ ResetNext s) (h : step s = .next t) :
    Untouched s t := by
  cases step_kind h with
  | sequencer hbusy ht => exact absurd hs hbusy
  | given u _ hu hseq ht =>
    have hsu := hu.untouched
    have hut : Untouched u t :=
      ht.elim (fun hc => hc.untouched (hsu.fault.symm ▸ hf) (hsu.seq.trans hs)) Framed.untouched
    exact hsu.trans hut
  | host _ ht hseq => exact ht.untouched
  | reset hz rest _ hh ht => exact absurd ⟨hs, _, rest, hh, rfl⟩ hr
  | acquire rs rest _ hh ht => exact absurd ⟨hs, _, rest, hh, rfl⟩ hr

/-! ### Bytes that are no command (R133, R137) -/

theorem runPacket_noCommand {bytes : List Byte} {e : DecodeError} (h : decode (.command bytes) = .error e) (s : State) :
    runPacket (.command bytes) s = .next (illegalCommand s) := by
  simp only [runPacket, h]

/-- With nothing in progress a step takes bytes that are no command as an illegal command. -/
theorem step_noCommand {bytes : List Byte} {e : DecodeError} {rest : List Stimulus} {s : State} (hidle : Idle s)
    (hi : s.inbox = .packet (.command bytes) :: rest) (hd : decode (.command bytes) = .error e) :
    step s = .next (illegalCommand (s.setInbox rest)) :=
  (step_packet hidle.1 hidle.2 hi).trans (runPacket_noCommand hd _)

theorem exec_payloadWrong {i : Instr} (hi : i.isCommand = true) (hp : i.payloadOk = false) {s : State} (hs : s.seq = [])
    (hf : s.fault = 0) : exec i s = .next (raise .illegalCommand s) := by
  rw [exec_command hi, hp, runCommand_illegal hs hf]

/-! ### The completions -/

theorem microStep_completions (s : State) : s.completions <+: (microStep s).completions := by
  cases hs : s.seq with
  | nil => rw [microStep_idle hs]
  | cons u rest =>
    have hadvance {t : State} (ht : t.completions = s.completions) : s.completions <+: (advance rest t).completions := by
      rw [advance_completions, ht]
      split
      · exact List.prefix_append _ _
      · exact List.prefix_rfl
    rcases microStep_cases hs with ⟨l, e, -, h⟩ | ⟨l, e, -, h⟩ | ⟨f, e, -, h⟩ | ⟨ms, -, h⟩ | ⟨g, e, sent, -, h⟩ | h <;>
      rw [h]
    · exact hadvance (by simp)
    · exact hadvance (by simp)
    · exact hadvance (by simp)
    · exact hadvance (by simp)
    · simp

theorem microSteps_completions (n : Nat) (s : State) : s.completions <+: (microSteps n s).completions := by
  induction n generalizing s with
  | zero => exact List.prefix_rfl
  | succ n ih => exact (microStep_completions s).trans (ih _)

theorem accept_completions {imm : State → State} {exp : List MicroOp} (hc : CommandParts imm exp) (wf : Bool)
    (res : Option (List Pixel)) (s : State) : s.completions <+: (accept wf imm res exp s).completions := by
  have himm : (imm s).completions = s.completions := by
    rcases hc.immediate with rfl | ⟨hz, rfl⟩ <;> rfl
  rcases accept_cases wf imm res exp s with ⟨-, h⟩ | ⟨-, h⟩ | ⟨-, -, h⟩ | ⟨-, h⟩ <;> simp [h, himm]

/-- What the host was handed is never taken back by a command or a frame. -/
theorem given_completions {s t : State} (h : Commanded s t ∨ Framed s t) : s.completions <+: t.completions := by
  rcases h with ⟨wf, imm, res, exp, hc, rfl⟩ | ⟨honly, -⟩
  · by_cases hs : s.seq = []
    · rw [runCommand_eq_microSteps wf imm res exp hs]
      exact (accept_completions hc wf res s).trans (microSteps_completions _ _)
    · rw [runCommand_notReady hs]
  · rw [honly]

theorem exec_next (i : Instr) (s : State) : ∃ t, exec i s = .next t := by
  cases hi : i.isCommand with
  | true => exact ⟨_, exec_command hi s⟩
  | false => exact ⟨_, exec_frame hi s⟩

/-! ### A block reset that fails (R140, R151) -/

theorem acquireAll_cons_ok {r : Resource} (rs : List Resource) {s : State} (h : (askResource r s.env).1 = .ok) :
    acquireAll (r :: rs) s = acquireAll rs (s.setEnv (askResource r s.env).2) := by
  rcases ha : askResource r s.env with ⟨a, e⟩
  obtain rfl : a = .ok := by simpa [ha] using h
  simp only [acquireAll, ha]

theorem acquireAll_cons_fail {r : Resource} (rs : List Resource) {s : State} (h : (askResource r s.env).1 = .fail) :
    acquireAll (r :: rs) s = resetFails r.code (s.setEnv (askResource r s.env).2) := by
  rcases ha : askResource r s.env with ⟨a, e⟩
  obtain rfl : a = .fail := by simpa [ha] using h
  simp only [acquireAll, ha]

/-- Block reset ended with the code of this resource: it is in `FAULT`, in the trace and handed over, and the host's state is
as before. -/
structure ResetFailed (r : Resource) (s t : State) : Prop where
  fault : t.fault = r.code
  trace : t.trace = [.fail r.code]
  completions : t.completions = s.completions ++ [⟨r.code, none⟩]
  seq : t.seq = []
  host : HostSame s t

theorem resetFails_resetElements (r : Resource) (hz : U32) (e : Env) (s : State) :
    ResetFailed r s (resetFails r.code ((resetElements hz s).setEnv e)) := by
  constructor <;> simp [resetFails, resetElements, HostSame]

/-- The first acquisition that fails ends block reset. -/
theorem blockReset_fails (hz : U32) (s : State) :
    let a1 := askGpio s.env
    let a2 := askGpio a1.2
    let a3 := askOpen a2.2
    (a1.1 = .fail → ResetFailed .csLine s (blockReset hz s)) ∧
      (a1.1 = .ok → a2.1 = .fail → ResetFailed .rstLine s (blockReset hz s)) ∧
      (a1.1 = .ok → a2.1 = .ok → a3.1 = .fail → ResetFailed .bus s (blockReset hz s)) := by
  intro a1 a2 a3
  have hfirst (h1 : a1.1 = .ok) : blockReset hz s = acquireAll [.rstLine, .bus] ((resetElements hz s).setEnv a1.2) :=
    acquireAll_cons_ok (r := .csLine) _ h1
  have hsecond (h1 : a1.1 = .ok) (h2 : a2.1 = .ok) :
      blockReset hz s = acquireAll [.bus] ((resetElements hz s).setEnv a2.2) :=
    (hfirst h1).trans (acquireAll_cons_ok (r := .rstLine) _ h2)
  refine ⟨fun h1 => ?_, fun h1 h2 => ?_, fun h1 h2 h3 => ?_⟩
  · have hfail : blockReset hz s = resetFails Resource.csLine.code _ := acquireAll_cons_fail (r := .csLine) _ h1
    exact hfail ▸ resetFails_resetElements ..
  · have hfail := (hfirst h1).trans (acquireAll_cons_fail (r := .rstLine) _ h2)
    exact hfail ▸ resetFails_resetElements ..
  · have hfail := (hsecond h1 h2).trans (acquireAll_cons_fail (r := .bus) _ h3)
    exact hfail ▸ resetFails_resetElements ..

/-- What the driver and the block come to when the construction ends with the code of this resource. -/
structure ConstructionFailed (r : Resource) (s t : State) : Prop where
  drv : t.drv = .failed
  hostSeq : t.hostSeq = []
  inbox : t.inbox = s.inbox
  hostLog : t.hostLog = s.hostLog ++ [.returned (.constructionFailure r.code)]
  completions : t.completions = s.completions ++ [⟨r.code, none⟩]
  trace : t.trace = [.fail r.code]
  fault : t.fault = r.code
  seq : t.seq = []

theorem ResetFailed.construction {r : Resource} {s u : State} (h : ResetFailed r s u) :
    ConstructionFailed r s (failHost .construction r.code ((u.setDrv .uninitialized).setHostSeq [])) := by
  obtain ⟨hfault, htrace, hcompletions, hseq, hinbox, -, -, hlog⟩ := h
  constructor <;> simp [failHost, hfault, htrace, hcompletions, hseq, hinbox, hlog]

/-- After a block reset that failed the driver is `Uninitialized`, and the check of the code ends the construction. -/
theorem run_afterResetFailed {r : Resource} {commands : List HostStep} {s u : State} (h : ResetFailed r s u)
    (hh : s.hostSeq = .setDrv .uninitialized :: .check .construction :: commands) :
    ∃ t, Host.Core.run Sys2Proof.core 2 u = .next t ∧ ConstructionFailed r s t := by
  obtain ⟨-, hseq, -, -⟩ := h.host
  have hcode : lastCode u = r.code := lastCode_of_append h.completions
  have hcheck : step ((u.setHostSeq (.check .construction :: commands)).setDrv .uninitialized) =
      .next (failHost .construction (lastCode u) ((u.setDrv .uninitialized).setHostSeq commands)) :=
    step_check_nonzero h.seq rfl (hcode ▸ r.code_ne_zero)
  rw [hcode] at hcheck
  exact ⟨_, (run_succ (step_setDrv h.seq (hseq.trans hh)) 1).trans (run_succ hcheck 0), h.construction⟩

/-- The operation is taken and its sequence begins with block reset. -/
theorem run_new_fails {hz : U32} {rest : List Stimulus} {r : Resource} {s : State} (hidle : Idle s)
    (hi : s.inbox = .host (.new hz) :: rest)
    (hreset : ∀ l, ResetFailed r ((s.setInbox rest).setHostSeq l) (blockReset hz ((s.setInbox rest).setHostSeq l))) :
    ∃ t, Host.Core.run Sys2Proof.core 4 s = .next t ∧ ConstructionFailed r (s.setInbox rest) t := by
  obtain ⟨hs, hh⟩ := hidle
  have htaken := step_hostOp hs hh hi
  rw [opSteps, newSteps_eq] at htaken
  generalize HostStep.setDrv .initializing :: (_ : List HostStep) = commands at htaken
  let after : List HostStep := .setDrv .uninitialized :: .check .construction :: commands
  have hblock : step ((s.setInbox rest).setHostSeq (.blockReset hz :: after)) =
      .next (blockReset hz ((s.setInbox rest).setHostSeq after)) :=
    step_hostSeq (s := (s.setInbox rest).setHostSeq (.blockReset hz :: after)) hs rfl
  obtain ⟨t, hrun, ht⟩ := run_afterResetFailed (hreset after) rfl
  refine ⟨t, (run_succ htaken 3).trans ((run_succ hblock 2).trans hrun), ?_⟩
  exact ⟨ht.drv, ht.hostSeq, ht.inbox, ht.hostLog, ht.completions, ht.trace, ht.fault, ht.seq⟩

end Sys2Proof.Machine
end

section
/-! SUPPORT. The obligations about failures (60_exceptions.md), each from the lemmas above. -/

namespace Sys2Proof.Machine

/-- Settles O24: the sequencer's step leaves the state as it is, and so does every step after it. -/
theorem unansweredActionHangs : Obligations.UnansweredActionHangs := by
  unfold Obligations.UnansweredActionHangs
  intro u rest s hs hnever
  apply run_fixed
  rcases hnever with ⟨⟨l, rfl | rfl⟩, h⟩ | ⟨⟨f, rfl⟩, h⟩
  · exact step_hung hs (perform_driveCs_never l h)
  · exact step_hung hs (perform_driveRst_never l h)
  · exact step_hung hs (perform_txFrame_never f h)

/-- Settles O31, field by field, by the laws of `raise`. -/
theorem raiseRecordsFirstFailure : Obligations.RaiseRecordsFirstFailure := by
  unfold Obligations.RaiseRecordsFirstFailure
  intro f s
  simp [recordFault, SpeedSame, HostSame]

/-- Settles O32: acceptance refuses, and no kind of step but block reset touches the block. -/
theorem faultedBlockRefusesEverything : Obligations.FaultedBlockRefusesEverything := by
  unfold Obligations.FaultedBlockRefusesEverything
  refine ⟨fun i s hi hf hs => ?_, fun s t hf hs hr h => ?_⟩
  · rw [exec_command hi, runCommand_refuses hs hf]
    rfl
  · obtain ⟨hfault, htrace, hcs, hrst, hseq, hspeed⟩ := step_untouched hf hs hr h
    exact ⟨hfault, htrace, hcs, hrst, hseq.trans hs, hspeed⟩

/-- Settles O33: in all three cases acceptance raises the failure, and nothing is left to perform. -/
theorem illegalCommandRaisedAtAcceptance : Obligations.IllegalCommandRaisedAtAcceptance := by
  unfold Obligations.IllegalCommandRaisedAtAcceptance
  intro illegal
  have hraise {s : State} (hf : s.fault = 0) : illegal s (raise .illegalCommand s) := by
    simp [illegal, Failure.code, recordFault, hf, SpeedSame]
  refine ⟨fun bytes e rest s hidle hf hi hd => ?_, fun w h buf s hs hf hlen => ?_, fun w h inbuf s hs hf hlen => ?_⟩
  · have hraised : illegalCommand (s.setInbox rest) = raise .illegalCommand (s.setInbox rest) :=
      runCommand_illegal hidle.1 hf
    exact ⟨_, hraised ▸ step_noCommand hidle hi hd, hraise (s := s.setInbox rest) hf, raise_inbox _ _⟩
  · exact ⟨_, exec_payloadWrong (i := .strm w h buf) rfl (decide_eq_false hlen) hs hf, hraise hf⟩
  · exact ⟨_, exec_payloadWrong (i := .pack w h inbuf) rfl (decide_eq_false hlen) hs hf, hraise hf⟩

/-- Settles O34: acceptance tests `FAULT` first. -/
theorem refusalTestedBeforeIllegality : Obligations.RefusalTestedBeforeIllegality := by
  unfold Obligations.RefusalTestedBeforeIllegality
  intro bytes e rest s hidle hf hi hd
  have hrefused : illegalCommand (s.setInbox rest) = complete codeFaulted none (s.setInbox rest) :=
    runCommand_refuses hidle.1 hf
  rw [step_noCommand hidle hi hd, hrefused]
  rfl

/-- Settles O35: one bracket and its failures. -/
theorem threeByteCommandFailures : Obligations.ThreeByteCommandFailures := by
  unfold Obligations.ThreeByteCommandFailures
  intro v data s hf hs i frame a1 a2 a3 fails
  have hrun : exec i s = .next (performAll (bracket frame ++ []) s) := by
    cases data <;> exact congrArg Host.Outcome.next (runCommand_runs _ _ hf hs)
  have hfails {cs : Level} {es : List Event} {code : BitVec 3}
      (h : FailsWith code es cs s.rstN s (performAll (bracket frame ++ []) s)) : fails cs es code :=
    ⟨_, hrun, h.csN, h.trace, h.fault_eq hf, h.seq, h.completions, h.rstN, h.speed, h.host⟩
  obtain ⟨hassert, hinside⟩ := failsWith_bracket frame [] s
  refine ⟨fun h1 => hfails (hassert h1), fun h1 h2 => ?_, fun k _ h1 h2 => ?_, fun h1 h2 h3 => ?_⟩
  all_goals obtain ⟨hopen, hcut, hrelease⟩ := hinside h1
  · exact hfails (hopen h2)
  · exact hfails (hcut k h2)
  · exact hfails (hrelease h2 h3)

/-- Settles O36: the failures of the first bracket, and, once it is done, those of the second. -/
theorem streamFrameCutAnywhere : Obligations.StreamFrameCutAnywhere := by
  unfold Obligations.StreamFrameCutAnywhere
  intro w h buf s hf hs hlen select stream a1 a2 a3 a4 a5 a6 fails
  have hrun : exec (.strm w h buf) s = .next (performAll (bracket select ++ bracket stream) s) :=
    (exec_strm hlen s).trans (congrArg Host.Outcome.next (runCommand_runs _ _ hf hs))
  have hfails {cs : Level} {es : List Event} {code : BitVec 3}
      (h : FailsWith code es cs s.rstN s (performAll (bracket select ++ bracket stream) s)) : fails cs es code :=
    ⟨_, hrun, h.csN, h.trace, h.fault_eq hf, h.seq, h.completions, h.rstN, h.speed, h.host⟩
  obtain ⟨hassert, hinside⟩ := failsWith_bracket select (bracket stream) s
  refine ⟨fun h1 => hfails (hassert h1), fun h1 => ?_⟩
  obtain ⟨hopen, hcut, hrelease⟩ := hinside h1
  refine ⟨fun h2 => hfails (hopen h2), fun k _ h2 => hfails (hcut k h2), fun h2 =>
    ⟨fun h3 => hfails (hrelease h2 h3), fun h3 => ?_⟩⟩
  obtain ⟨t, hdid, hcs, hrst, henv, hselected⟩ := bracket_done select (List.cons_ne_nil _ _) h1 h2 h3
  have hfails' {cs : Level} {es : List Event} {code : BitVec 3}
      (h : FailsWith code es cs t.rstN t (performAll (bracket stream ++ []) t)) :
      fails cs (bracketEvents select ++ es) code :=
    hfails (hselected ▸ hrst ▸ hdid.failsWith h)
  obtain ⟨hassert', hinside'⟩ := failsWith_bracket stream [] t
  rw [henv] at hassert' hinside'
  rw [hcs] at hassert'
  refine ⟨fun h4 => hfails' (hassert' h4), fun h4 => ?_⟩
  obtain ⟨hopen', hcut', hrelease'⟩ := hinside' h4
  exact ⟨fun h5 => hfails' (hopen' h5), fun k _ h5 => hfails' (hcut' k h5), fun h5 h6 => hfails' (hrelease' h5 h6)⟩

/-- Settles O37: a failure at one of the three drives, the drives before it done and held. -/
theorem rstpFailures : Obligations.RstpFailures := by
  unfold Obligations.RstpFailures
  intro s hf hs a1 a2 a3 fails
  have hrun : exec .rstp s = .next (performAll expandRstp s) := congrArg Host.Outcome.next (runCommand_runs _ _ hf hs)
  have hfails {rst : Level} {es : List Event} (h : FailsWith 3 es s.csN rst s (performAll expandRstp s)) : fails rst es :=
    ⟨_, hrun, h.rstN, h.trace, h.fault_eq hf, h.seq, h.completions, h.csN, h.speed, h.host⟩
  refine ⟨fun h1 => hfails (failsWith_driveRst .high _ h1), fun h1 h2 => hfails ?_, fun h1 h2 h3 => hfails ?_⟩
  all_goals
    obtain ⟨t, hdid, hcs, hrst, henv, hdriven⟩ := driveRst_wait_done .high 10
      (rest := [.driveRst .low, .wait 10, .driveRst .high, .wait 50]) (List.cons_ne_nil _ _) h1
    rw [show a2 = askGpio t.env by rw [henv]] at h2
  · have hfail := failsWith_driveRst .low [.wait 10, .driveRst .high, .wait 50] h2
    rw [← hdriven, hcs, hrst] at hfail
    exact hdid.failsWith hfail
  · obtain ⟨u, hdid', hcs', hrst', henv', hdriven'⟩ := driveRst_wait_done .low 10
      (rest := [.driveRst .high, .wait 50]) (List.cons_ne_nil _ _) h2
    rw [show a3 = askGpio u.env by rw [henv', henv]] at h3
    have hfail := failsWith_driveRst .high [.wait 50] h3
    rw [← hdriven', ← hdriven, hcs', hcs, hrst'] at hfail
    exact (hdid.trans hdid').failsWith hfail

/-- Settles O40: a command goes through acceptance and the sequencer, which only hand over more, and a frame reaches the
controller only. -/
theorem everyInstructionAnswersNext : Obligations.EveryInstructionAnswersNext := by
  unfold Obligations.EveryInstructionAnswersNext
  intro i s
  obtain ⟨t, h⟩ := exec_next i s
  exact ⟨t, h, given_completions (exec_kind h)⟩

/-- Settles O58: the first acquisition that fails ends block reset, and its code the construction. -/
theorem constructionFailsWithBlockReset : Obligations.ConstructionFailsWithBlockReset := by
  unfold Obligations.ConstructionFailsWithBlockReset
  intro hz rest s hidle hi a1 a2 a3 failsWith
  have hfails {r : Resource} (h : ∀ l, ResetFailed r ((s.setInbox rest).setHostSeq l)
      (blockReset hz ((s.setInbox rest).setHostSeq l))) : failsWith r.code := by
    obtain ⟨t, hrun, ht⟩ := run_new_fails hidle hi h
    exact ⟨t, hrun, ht.drv, ht.hostSeq, ht.inbox, ht.hostLog, ht.completions, ht.trace, ht.fault, ht.seq⟩
  have hreset (l : List HostStep) := blockReset_fails hz ((s.setInbox rest).setHostSeq l)
  exact ⟨fun h1 => hfails (r := .csLine) fun l => (hreset l).1 h1,
    fun h1 h2 => hfails (r := .rstLine) fun l => (hreset l).2.1 h1 h2,
    fun h1 h2 h3 => hfails (r := .bus) fun l => (hreset l).2.2 h1 h2 h3⟩

end Sys2Proof.Machine
end

section
/-! SUPPORT. What block reset comes to at each of its acquisitions, whatever the environment answers (70_reset_and_hazards.md
R150, R151): it ends with a code, or it waits for good (R131). -/

namespace Sys2Proof.Machine

/-! ### An acquisition that is never answered (R131) -/

theorem acquireAll_cons_never {r : Resource} (rs : List Resource) {s : State} (h : (askResource r s.env).1 = .never) :
    acquireAll (r :: rs) s = s.setHostSeq (.acquire (r :: rs) :: s.hostSeq) := by
  rcases ha : askResource r s.env with ⟨a, e⟩
  obtain rfl : a = .never := by simpa [ha] using h
  simp only [acquireAll, ha]

theorem step_acquire_never {r : Resource} {rs : List Resource} {rest : List HostStep} {s : State} (hs : s.seq = [])
    (hh : s.hostSeq = .acquire (r :: rs) :: rest) (h : (askResource r s.env).1 = .never) : step s = .next s := by
  have hwait : acquireAll (r :: rs) (s.setHostSeq rest) = s.setHostSeq (.acquire (r :: rs) :: rest) :=
    acquireAll_cons_never rs (s := s.setHostSeq rest) h
  rw [step_hostSeq hs hh, runHostStep, hwait, ← hh]
  rfl

/-! ### After the elements are set (R150, R151) -/

/-- Block reset ended with this code: the elements hold the values of R27 but for the code and the events, the code was handed
over, and the host's state is as before. -/
structure ResetEnded (hz : U32) (code : BitVec 3) (events : List Event) (s t : State) : Prop where
  csN : t.csN = .high
  rstN : t.rstN = .high
  speedHz : t.speedHz = hz
  speedActive : t.speedActive = hz
  spiMode : t.spiMode = 3
  seq : t.seq = []
  fault : t.fault = code
  trace : t.trace = events
  completions : t.completions = s.completions ++ [⟨code, none⟩]
  host : HostSame s t

/-- Block reset waits inside an acquisition: the elements hold the values of R27, nothing was handed over, and no step leads
on. -/
structure ResetWaits (hz : U32) (s t : State) : Prop where
  elements : BlockReset hz t
  inbox : t.inbox = s.inbox
  drv : t.drv = s.drv
  hostLog : t.hostLog = s.hostLog
  completions : t.completions = s.completions
  stays : step t = .next t

/-- The elements are set, and these are the answers still to come. -/
def elementsReset (hz : U32) (s : State) (e : Env) : State := (resetElements hz s).setEnv e

theorem blockReset_eq_acquireAll (hz : U32) (s : State) :
    blockReset hz s = acquireAll [.csLine, .rstLine, .bus] (elementsReset hz s s.env) := rfl

theorem acquireAll_elementsReset_ok {r : Resource} (rs : List Resource) (hz : U32) (s : State) {e : Env}
    (h : (askResource r e).1 = .ok) :
    acquireAll (r :: rs) (elementsReset hz s e) = acquireAll rs (elementsReset hz s (askResource r e).2) :=
  acquireAll_cons_ok rs (s := elementsReset hz s e) h

theorem blockReset_csLine_ok (hz : U32) {s : State} (h1 : (askGpio s.env).1 = .ok) :
    blockReset hz s = acquireAll [.rstLine, .bus] (elementsReset hz s (askGpio s.env).2) :=
  (blockReset_eq_acquireAll hz s).trans (acquireAll_elementsReset_ok (r := .csLine) _ hz s h1)

theorem blockReset_lines_ok (hz : U32) {s : State} (h1 : (askGpio s.env).1 = .ok)
    (h2 : (askGpio (askGpio s.env).2).1 = .ok) :
    blockReset hz s = acquireAll [.bus] (elementsReset hz s (askGpio (askGpio s.env).2).2) :=
  (blockReset_csLine_ok hz h1).trans (acquireAll_elementsReset_ok (r := .rstLine) _ hz s h2)

theorem resetEnded_of_fail {r : Resource} (rs : List Resource) (hz : U32) (s : State) {e : Env}
    (h : (askResource r e).1 = .fail) :
    ResetEnded hz r.code [.fail r.code] s (acquireAll (r :: rs) (elementsReset hz s e)) := by
  rw [acquireAll_cons_fail rs (s := elementsReset hz s e) h]
  obtain ⟨hfault, htrace, hcompletions, hseq, hhost⟩ := resetFails_resetElements r hz (askResource r e).2 s
  exact ⟨rfl, rfl, rfl, rfl, rfl, hseq, hfault, htrace, hcompletions, hhost⟩

theorem resetEnded_of_acquired (hz : U32) (s : State) (e : Env) :
    ResetEnded hz 0 [] s (acquireAll [] (elementsReset hz s e)) :=
  ⟨rfl, rfl, rfl, rfl, rfl, rfl, rfl, rfl, rfl, rfl, rfl, rfl, rfl⟩

theorem resetWaits_of_never {r : Resource} (rs : List Resource) (hz : U32) (s : State) {e : Env}
    (h : (askResource r e).1 = .never) : ResetWaits hz s (acquireAll (r :: rs) (elementsReset hz s e)) := by
  rw [acquireAll_cons_never rs (s := elementsReset hz s e) h]
  exact ⟨⟨rfl, rfl, rfl, rfl, rfl, rfl, rfl, rfl⟩, rfl, rfl, rfl, rfl, step_acquire_never rfl rfl h⟩

end Sys2Proof.Machine
end

section
/-! SUPPORT. The obligation about block reset (70_reset_and_hazards.md), from the lemmas above. -/

namespace Sys2Proof.Machine

/-- Settles O2: an attempt answered `ok` leads to the next one; the first answered otherwise ends block reset or holds it there. -/
theorem blockResetAcquiresInOrder : Obligations.BlockResetAcquiresInOrder := by
  unfold Obligations.BlockResetAcquiresInOrder
  intro hz rest s hs hh a1 a2 a3 ends hangs
  let u := s.setHostSeq rest
  have hstep : step s = .next (blockReset hz u) := step_hostSeq hs hh
  have hends {code : BitVec 3} {events : List Event} (h : ResetEnded hz code events u (blockReset hz u)) :
      ends code events := by
    obtain ⟨hinbox, hseq, hdrv, hlog⟩ := h.host
    exact ⟨_, hstep, h.csN, h.rstN, h.speedHz, h.speedActive, h.spiMode, h.seq, h.fault, h.trace, hseq, hinbox, hdrv, hlog,
      h.completions⟩
  have hhangs (h : ResetWaits hz u (blockReset hz u)) : hangs :=
    ⟨_, hstep, h.elements, h.inbox, h.drv, h.hostLog, h.completions, run_fixed h.stays⟩
  have hcs (h1 : a1.1 = .ok) : blockReset hz u = acquireAll [.rstLine, .bus] (elementsReset hz u a1.2) :=
    blockReset_csLine_ok hz h1
  have hlines (h1 : a1.1 = .ok) (h2 : a2.1 = .ok) : blockReset hz u = acquireAll [.bus] (elementsReset hz u a2.2) :=
    blockReset_lines_ok hz h1 h2
  refine ⟨fun h1 => hends ?_, fun h1 => hhangs ?_, fun h1 h2 => hends ?_, fun h1 h2 => hhangs ?_,
    fun h1 h2 h3 => hends ?_, fun h1 h2 h3 => hhangs ?_, fun h1 h2 h3 => hends ?_⟩
  · exact resetEnded_of_fail (r := .csLine) [.rstLine, .bus] hz u h1
  · exact resetWaits_of_never (r := .csLine) [.rstLine, .bus] hz u h1
  · exact hcs h1 ▸ resetEnded_of_fail (r := .rstLine) [.bus] hz u h2
  · exact hcs h1 ▸ resetWaits_of_never (r := .rstLine) [.bus] hz u h2
  · exact hlines h1 h2 ▸ resetEnded_of_fail (r := .bus) [] hz u h3
  · exact hlines h1 h2 ▸ resetWaits_of_never (r := .bus) [] hz u h3
  · rw [hlines h1 h2, acquireAll_elementsReset_ok (r := .bus) [] hz u h3]
    exact resetEnded_of_acquired hz u a3.2

end Sys2Proof.Machine
end
